-- ==== Sys2Proof/Word.lean ====
section
/-! DEFINITION. The one unit of data the block moves: the byte (R10). -/

namespace Sys2Proof

/-- A byte is 8 bits (R10). -/
abbrev Byte := BitVec 8

end Sys2Proof
end

