-- ==== Sys2Proof/Config.lean ====
section
/-! DEFINITION. What an implementation fixes (the parameters of R9) and the free values (the draws of R12).

The parameters are fields of `Platform`, plain data that `State` carries and no step writes, so that a statement about
every state holds for every value of them; a predicate that is no list is an opaque constant, of which nothing is known.
What no statement may know (the draws, the free schedule, the pixel clock) is an opaque constant too. -/

namespace Sys2Proof

/-- The configuration record of R19: every field given, no hidden default (R135). The numeric fields are naturals, which
the interface admits below 2^CFG_BITS (R78, R79; log 2). The polarity flags are one bit each, and no rule gives a value
of theirs a meaning. -/
structure CtrlConfig where
  /-- active width, in pixels -/
  aw : Nat
  /-- active height, in lines -/
  ah : Nat
  /-- horizontal back porch -/
  hbp : Nat
  /-- horizontal front porch -/
  hfp : Nat
  /-- vertical back porch -/
  vbp : Nat
  /-- vertical front porch -/
  vfp : Nat
  /-- horizontal sync pulse width -/
  hsw : Nat
  /-- vertical sync pulse width -/
  vsw : Nat
  /-- h-sync polarity flag -/
  hsyncPol : BitVec 1
  /-- v-sync polarity flag -/
  vsyncPol : BitVec 1
  /-- data-enable polarity flag -/
  dePol : BitVec 1
  /-- pixel-clock polarity flag -/
  pclkPol : BitVec 1
  deriving DecidableEq, Repr, Inhabited

/-- The order of the two bytes of a 16-bit value: low byte first, or high byte first. -/
inductive ByteOrder where
  | LE
  | BE
  deriving DecidableEq, Repr, Inhabited

/-- A stretch of host memory that exists for the whole run: the bytes `lo .. hi-1`. -/
structure Region where
  lo : Nat
  hi : Nat
  deriving DecidableEq, Repr, Inhabited

/-- MEM_VALID(a, n) of R9: which ranges exist for the whole run. Log 4. -/
inductive MemRule where
  /-- the ranges that one of the listed stretches holds -/
  | regions (list : List Region)
  /-- any other predicate: the opaque one with this label, `Config.memPredicate` -/
  | predicate (label : Nat)
  deriving DecidableEq, Repr, Inhabited

/-- The response counts a read variant admits, READ_LEN_OK of R9 for one variant. Log 5. -/
inductive LenRule where
  /-- every count -/
  | any
  /-- exactly the counts listed -/
  | oneOf (counts : List Nat)
  /-- any other predicate: the opaque one with this label, `Config.lenPredicate` -/
  | predicate (label : Nat)
  deriving DecidableEq, Repr, Inhabited

/-- The parameters of R9 that are fixed for a run and are no count of layers, label or opaque function. No step writes
them. Log 1. -/
structure Platform where
  /-- ADDR_BITS -/
  addrBits : Nat
  /-- PITCH_BITS -/
  pitchBits : Nat
  /-- CFG_BITS -/
  cfgBits : Nat
  /-- MEM_VALID -/
  memRule : MemRule
  /-- FB_ALIGN(8), in bytes -/
  fbAlign8 : Nat
  /-- FB_ALIGN(16), in bytes -/
  fbAlign16 : Nat
  /-- FB_ALIGN(32), in bytes -/
  fbAlign32 : Nat
  /-- MRPS_BYTE_ORDER -/
  mrpsByteOrder : ByteOrder
  /-- EXT_ARGS_LEN(GenericShortP1) -/
  extArgsP1 : Nat
  /-- EXT_ARGS_LEN(GenericShortP2) -/
  extArgsP2 : Nat
  /-- READ_LEN_OK for DcsShort -/
  lenDcsShort : LenRule
  /-- READ_LEN_OK for GenericShortP0 -/
  lenGenericShortP0 : LenRule
  /-- READ_LEN_OK for GenericShortP1 -/
  lenGenericShortP1 : LenRule
  /-- READ_LEN_OK for GenericShortP2 -/
  lenGenericShortP2 : LenRule
  /-- MAX_LONG_DATA; `none` is unbounded -/
  maxLongData : Option Nat
  /-- HOST_READ_OWNED_ALLOWED -/
  hostReadOwnedAllowed : Bool
  /-- MEM_BYTE_ORDER; no rule reads it (R49) -/
  memByteOrder : ByteOrder
  deriving DecidableEq, Repr, Inhabited

/-- A transport error value, `e : ERR` (R143): an opaque label that no rule looks into. Log 6. -/
structure TransportError where
  label : Nat
  deriving DecidableEq, Repr, Inhabited

/-- Which agent moves next, with the environment's choices for that step (R8, R13). Log 9. -/
inductive Turn where
  /-- the host performs its next request or memory access -/
  | host
  /-- the transport draws `Ok` for the transaction in flight (R86, R102) -/
  | completeOk
  /-- the transport draws `Err(e)`, and the first `k` bytes of the frame, or the whole of a shorter one, reached
  the wire (R86, R103) -/
  | completeErr (e : TransportError) (k : Nat)
  /-- the timing generator's vertical blank (R126) -/
  | vblank
  /-- the scan-out engine reads `n` bytes from `a` for layer `i` (R123) -/
  | scan (i : Nat) (a : Nat) (n : Nat)
  deriving DecidableEq, Repr, Inhabited

/-- The byte of the `k`-th draw that nothing outside has supplied (R12): a free value. Log 8. -/
opaque Config.freeByte : Nat → Byte

/-- The `k`-th turn that nothing outside has scheduled (R13): a free value. Log 9. -/
opaque Config.freeTurn : Nat → Turn

/-- MEM_VALID as an arbitrary predicate of the address and the count, one for each label: nothing is known of it, so
what is proved of it holds for every predicate. Log 4. -/
opaque Config.memPredicate : Nat → Nat → Nat → Bool

/-- READ_LEN_OK of one read variant as an arbitrary predicate of the count, one for each label. Log 5. -/
opaque Config.lenPredicate : Nat → Nat → Bool

/-- PIXEL_CLOCK_HZ of R9 and R139: a total function of the configuration of which nothing else is known. Log 7. -/
opaque Config.pixelClockHz : CtrlConfig → Nat

end Sys2Proof
end

