-- ==== Sys2Proof/Machine/Platform.lean ====
section
/-! DEFINITION. The parameter values the reset state starts with. No rule gives the OPEN ones a value; every statement
about reset that names no platform holds for all of them (`State.resetOn`). -/

namespace Sys2Proof.Machine

/-- R9's defaults; for the OPEN parameters every address exists and every response count is admitted.
DESIGN CHOICE, unsafe: log 1, 2, 4 and 5. MRPS_BYTE_ORDER is LE: PRESUMED, log 18. -/
def resetPlatform : Platform where
  addrBits := 32
  pitchBits := 32
  cfgBits := 16
  memRule := .regions [⟨0, 4294967296⟩]
  fbAlign8 := 1
  fbAlign16 := 2
  fbAlign32 := 4
  mrpsByteOrder := .LE
  extArgsP1 := 1
  extArgsP2 := 2
  lenDcsShort := .any
  lenGenericShortP0 := .any
  lenGenericShortP1 := .any
  lenGenericShortP2 := .any
  maxLongData := none
  hostReadOwnedAllowed := false
  memByteOrder := .LE

/-- NUM_LAYERS of the reset state, one more than this. DESIGN CHOICE, unsafe: log 3. -/
def resetExtraLayers : Nat := 1

end Sys2Proof.Machine
end

