-- ==== Sys2Proof/Syntax.lean ====
section
/-! DEFINITION. The syntax of the block: the requests (R77), one constructor of `Instr` per row of the opcode table,
the raw request records they are spelled as, and the commands a wire frame carries (R68). -/

namespace Sys2Proof

/-- The pixel formats of R17 and R66, in the order of their codes. -/
inductive PixelFormat where
  | argb8888
  | rgb888
  | rgb565
  | argb1555
  | argb4444
  | l8
  | al44
  | al88
  deriving DecidableEq, Repr, Inhabited

/-- The pixel word widths of R29: 8, 16 or 32 bits. -/
inductive PixelWord where
  | w8
  | w16
  | w32
  deriving DecidableEq, Repr, Inhabited

/-- The eight kinds of request (R63, R77). -/
inductive RequestKind where
  | write
  | read
  | enable
  | swapFramebuffer
  | isSwapPending
  | resizeBufferPitch
  | init
  | clock
  deriving DecidableEq, Repr, Inhabited

/-- The eight write variants of R64. -/
inductive WriteVariant where
  | dcsShortP0
  | dcsShortP1
  | dcsLongWrite
  | genericShortP0
  | genericShortP1
  | genericShortP2
  | genericLongWrite
  | setMaximumReturnPacketSize
  deriving DecidableEq, Repr, Inhabited

/-- The four read variants of R65. -/
inductive ReadVariant where
  | dcsShort
  | genericShortP0
  | genericShortP1
  | genericShortP2
  deriving DecidableEq, Repr, Inhabited

/-- A write command with everything its frame carries: the slice's bytes for the long writes, and the external
bytes for GenericShortP1 and GenericShortP2 (R95). -/
inductive WriteCommand where
  | dcsShortP0 (a : Byte)
  | dcsShortP1 (a d : Byte)
  | dcsLongWrite (a : Byte) (data : List Byte)
  | genericShortP0
  | genericShortP1 (x : List Byte)
  | genericShortP2 (x : List Byte)
  | genericLongWrite (a : Byte) (data : List Byte)
  | setMaximumReturnPacketSize (size : BitVec 16)
  deriving DecidableEq, Repr, Inhabited

/-- A read command (R108). -/
inductive ReadCommand where
  | dcsShort (a : Byte)
  | genericShortP0
  | genericShortP1 (a : Byte)
  | genericShortP2 (a0 a1 : Byte)
  deriving DecidableEq, Repr, Inhabited

/-- What a frame decodes to: a command and its direction (R71, R74). -/
inductive WireCommand where
  | write (c : WriteCommand)
  | read (c : ReadCommand)
  deriving DecidableEq, Repr, Inhabited

/-- The verdicts of the frame checker of R74 on a byte list that is no frame. -/
inductive FrameInvalid where
  | empty
  | unknownCode
  | badLength
  deriving DecidableEq, Repr, Inhabited

/-- The reasons for refusing a request's spelling (R79, R147). -/
inductive RefuseReason where
  | unknownOp
  | unknownCode
  | badFields
  | operandRange
  | reservedWord
  deriving DecidableEq, Repr, Inhabited

/-- A request as the host spells it (R77): the label OP, the command's discriminant and fields, and the other operand
fields in the order of R77's table. Every value is a natural, so that a value too wide for its field, which R79
refuses, can be written down. Log 15. -/
structure RawRequest where
  /-- the operation label -/
  op : Nat
  /-- `cmd` of a DSI request: DT, then the command's own fields; empty for a control request -/
  cmd : List Nat
  /-- the operand fields after `cmd` -/
  operands : List Nat
  deriving DecidableEq, Repr, Inhabited

/-- The admitted requests (R77), one constructor per row of the opcode table, with the operands of R78: those of a fixed
width as bit vectors, those whose width is a parameter as naturals, which `wellFormed` holds to it. -/
inductive Instr where
  /-- write.DcsShortP0 (R87) -/
  | writeDcsShortP0 (a : Byte)
  /-- write.DcsShortP1 (R88) -/
  | writeDcsShortP1 (a d : Byte)
  /-- write.DcsLongWrite (R89) -/
  | writeDcsLongWrite (a : Byte) (dAddr : Nat) (dLen : Nat)
  /-- write.GenericShortP0 (R90) -/
  | writeGenericShortP0
  /-- write.GenericShortP1 (R91) -/
  | writeGenericShortP1
  /-- write.GenericShortP2 (R92) -/
  | writeGenericShortP2
  /-- write.GenericLongWrite (R93) -/
  | writeGenericLongWrite (a : Byte) (dAddr : Nat) (dLen : Nat)
  /-- write.SetMaximumReturnPacketSize (R94) -/
  | writeSetMaximumReturnPacketSize (size : BitVec 16)
  /-- read.DcsShort (R104) -/
  | readDcsShort (a : Byte) (bAddr : Nat) (n : Nat)
  /-- read.GenericShortP0 (R105) -/
  | readGenericShortP0 (bAddr : Nat) (n : Nat)
  /-- read.GenericShortP1 (R106) -/
  | readGenericShortP1 (a : Byte) (bAddr : Nat) (n : Nat)
  /-- read.GenericShortP2 (R107) -/
  | readGenericShortP2 (a0 a1 : Byte) (bAddr : Nat) (n : Nat)
  /-- layer.enable (R118); `word` is the 2-bit code of R67 -/
  | layerEnable (i : Nat) (p : Nat) (pf : PixelFormat) (word : BitVec 2)
  /-- layer.swap_framebuffer (R119) -/
  | layerSwapFramebuffer (i : Nat) (p : Nat) (word : BitVec 2)
  /-- layer.is_swap_pending (R120) -/
  | layerIsSwapPending (i : Nat)
  /-- layer.resize_buffer_pitch (R121) -/
  | layerResizeBufferPitch (i : Nat) (width : Nat)
  /-- ctrl.init (R135) -/
  | ctrlInit (cfg : CtrlConfig)
  /-- ctrl.clock (R138) -/
  | ctrlClock
  deriving DecidableEq, Repr, Inhabited

end Sys2Proof
end

