-- ==== Sys2Proof/WellFormed.lean ====
section
/-! DEFINITION. Which requests the interface admits (R79): every operand fits its width (R78), and the WORD code is not
3, which is reserved (R67). The operands of fixed width hold that by their types; the widths that are parameters of R9
are checked. -/

namespace Sys2Proof

/-- The WORD code is one of the three that name a width; 3 is reserved (R67). -/
def wordCodeOK (word : BitVec 2) : Bool := word != 3#2

/-- A value fits a field of `w` bits (R78). -/
def fits (w v : Nat) : Bool := v < 2 ^ w

/-- The numeric fields of a configuration record fit CFG_BITS bits (R19, R137). -/
def cfgFits (p : Platform) (c : CtrlConfig) : Bool :=
  fits p.cfgBits c.aw && fits p.cfgBits c.ah && fits p.cfgBits c.hbp && fits p.cfgBits c.hfp && fits p.cfgBits c.vbp &&
    fits p.cfgBits c.vfp && fits p.cfgBits c.hsw && fits p.cfgBits c.vsw

/-- The request may be spelled on this platform (R78, R79 points 4 and 5). -/
def wellFormed (p : Platform) : Instr → Bool
  | .writeDcsShortP0 _ => true
  | .writeDcsShortP1 _ _ => true
  | .writeDcsLongWrite _ dAddr _ => fits p.addrBits dAddr
  | .writeGenericShortP0 => true
  | .writeGenericShortP1 => true
  | .writeGenericShortP2 => true
  | .writeGenericLongWrite _ dAddr _ => fits p.addrBits dAddr
  | .writeSetMaximumReturnPacketSize _ => true
  | .readDcsShort _ bAddr _ => fits p.addrBits bAddr
  | .readGenericShortP0 bAddr _ => fits p.addrBits bAddr
  | .readGenericShortP1 _ bAddr _ => fits p.addrBits bAddr
  | .readGenericShortP2 _ _ bAddr _ => fits p.addrBits bAddr
  | .layerEnable _ ptr _ word => fits p.addrBits ptr && wordCodeOK word
  | .layerSwapFramebuffer _ ptr word => fits p.addrBits ptr && wordCodeOK word
  | .layerIsSwapPending _ => true
  | .layerResizeBufferPitch _ width => fits p.pitchBits width
  | .ctrlInit cfg => cfgFits p cfg
  | .ctrlClock => true

end Sys2Proof
end

