-- ==== Sys2Proof/Decode.lean ====
section
/-! DEFINITION. The encodings of the block, both ways.

The wire: the discriminants (R64, R65), the frames (R68, R69, R95, R108) and the frame checker (R74). The request
interface: the labels (R77), `decode` from a raw request record to an admitted request or a refusal by name (R79), and
`encode` back. Last, the reading of the opcode table's words (R84). -/

namespace Sys2Proof

/-! ### Discriminants and codes -/

/-- The write discriminants, the table of R64. -/
def discW : WriteVariant → Byte
  | .dcsShortP0 => 0x05#8
  | .dcsShortP1 => 0x15#8
  | .dcsLongWrite => 0x39#8
  | .genericShortP0 => 0x03#8
  | .genericShortP1 => 0x13#8
  | .genericShortP2 => 0x23#8
  | .genericLongWrite => 0x29#8
  | .setMaximumReturnPacketSize => 0x37#8

/-- The read discriminants, the table of R65. -/
def discR : ReadVariant → Byte
  | .dcsShort => 0x06#8
  | .genericShortP0 => 0x04#8
  | .genericShortP1 => 0x14#8
  | .genericShortP2 => 0x24#8

/-- The closed set of write variants (R73). -/
def writeVariants : List WriteVariant :=
  [.dcsShortP0, .dcsShortP1, .dcsLongWrite, .genericShortP0, .genericShortP1, .genericShortP2, .genericLongWrite,
    .setMaximumReturnPacketSize]

/-- The closed set of read variants (R73). -/
def readVariants : List ReadVariant :=
  [.dcsShort, .genericShortP0, .genericShortP1, .genericShortP2]

/-- The write variant a discriminant names, or none (R64, R73). -/
def writeVariantOf (dt : Nat) : Option WriteVariant :=
  writeVariants.find? (fun v => (discW v).toNat == dt)

/-- The read variant a discriminant names, or none (R65, R73). -/
def readVariantOf (dt : Nat) : Option ReadVariant :=
  readVariants.find? (fun v => (discR v).toNat == dt)

/-- The 3-bit pixel-format codes of R66: the position in the source's list (D15). -/
def pixelFormatCode : PixelFormat → BitVec 3
  | .argb8888 => 0#3
  | .rgb888 => 1#3
  | .rgb565 => 2#3
  | .argb1555 => 3#3
  | .argb4444 => 4#3
  | .l8 => 5#3
  | .al44 => 6#3
  | .al88 => 7#3

/-- The format of a 3-bit code; all eight codes are used (R66). -/
def pixelFormatOf (code : BitVec 3) : PixelFormat :=
  match code.toNat with
  | 0 => .argb8888
  | 1 => .rgb888
  | 2 => .rgb565
  | 3 => .argb1555
  | 4 => .argb4444
  | 5 => .l8
  | 6 => .al44
  | _ => .al88

/-- The word width of a 2-bit WORD code; 3 is reserved (R67). -/
def pixelWordOf (code : BitVec 2) : Option PixelWord :=
  match code.toNat with
  | 0 => some .w8
  | 1 => some .w16
  | 2 => some .w32
  | _ => none

/-- The operation labels of R77 (D42). -/
def opLabel : RequestKind → Nat
  | .write => 0x10
  | .read => 0x11
  | .enable => 0x20
  | .swapFramebuffer => 0x21
  | .isSwapPending => 0x22
  | .resizeBufferPitch => 0x23
  | .init => 0x30
  | .clock => 0x31

/-- Every kind of request (R63). -/
def requestKinds : List RequestKind :=
  [.write, .read, .enable, .swapFramebuffer, .isSwapPending, .resizeBufferPitch, .init, .clock]

/-- The kind of request a label names, or none (R77). -/
def requestKindOf (op : Nat) : Option RequestKind :=
  requestKinds.find? (fun k => opLabel k == op)

/-! ### Wire frames -/

/-- The low byte of a 16-bit value (R11). -/
def lo8 (v : BitVec 16) : Byte := v.extractLsb' 0 8

/-- The high byte of a 16-bit value (R11). -/
def hi8 (v : BitVec 16) : Byte := v.extractLsb' 8 8

/-- The two bytes of a value on the wire, first byte first (R95's `order`). -/
def orderBytes (o : ByteOrder) (lo hi : Byte) : List Byte :=
  match o with
  | .LE => [lo, hi]
  | .BE => [hi, lo]

/-- The value whose two wire bytes, first byte first, are given. -/
def joinBytes (o : ByteOrder) (first second : Byte) : BitVec 16 :=
  match o with
  | .LE => BitVec.ofNat 16 (second.toNat * 256 + first.toNat)
  | .BE => BitVec.ofNat 16 (first.toNat * 256 + second.toNat)

/-- The frame of a write command (R95): the discriminant, the arguments, the data, and nothing else. -/
def encW (o : ByteOrder) : WriteCommand → List Byte
  | .dcsShortP0 a => [0x05#8, a]
  | .dcsShortP1 a d => [0x15#8, a, d]
  | .dcsLongWrite a data => [0x39#8, a] ++ data
  | .genericShortP0 => [0x03#8]
  | .genericShortP1 x => [0x13#8] ++ x
  | .genericShortP2 x => [0x23#8] ++ x
  | .genericLongWrite a data => [0x29#8, a] ++ data
  | .setMaximumReturnPacketSize size => [0x37#8] ++ orderBytes o (lo8 size) (hi8 size)

/-- The frame of a read command (R108). -/
def encR : ReadCommand → List Byte
  | .dcsShort a => [0x06#8, a]
  | .genericShortP0 => [0x04#8]
  | .genericShortP1 a => [0x14#8, a]
  | .genericShortP2 a0 a1 => [0x24#8, a0, a1]

/-- The variant of a write command. -/
def writeVariantOfCommand : WriteCommand → WriteVariant
  | .dcsShortP0 _ => .dcsShortP0
  | .dcsShortP1 _ _ => .dcsShortP1
  | .dcsLongWrite _ _ => .dcsLongWrite
  | .genericShortP0 => .genericShortP0
  | .genericShortP1 _ => .genericShortP1
  | .genericShortP2 _ => .genericShortP2
  | .genericLongWrite _ _ => .genericLongWrite
  | .setMaximumReturnPacketSize _ => .setMaximumReturnPacketSize

/-- The variant of a read command. -/
def readVariantOfCommand : ReadCommand → ReadVariant
  | .dcsShort _ => .dcsShort
  | .genericShortP0 => .genericShortP0
  | .genericShortP1 _ => .genericShortP1
  | .genericShortP2 _ _ => .genericShortP2

/-- The write half of the frame checker of R74: the bytes after the discriminant. -/
def decodeWriteFrame (p : Platform) (v : WriteVariant) (rest : List Byte) : Except FrameInvalid WireCommand :=
  match v, rest with
  | .genericShortP0, [] => .ok (.write .genericShortP0)
  | .dcsShortP0, [a] => .ok (.write (.dcsShortP0 a))
  | .dcsShortP1, [a, d] => .ok (.write (.dcsShortP1 a d))
  | .setMaximumReturnPacketSize, [first, second] =>
    .ok (.write (.setMaximumReturnPacketSize (joinBytes p.mrpsByteOrder first second)))
  | .dcsLongWrite, a :: data => .ok (.write (.dcsLongWrite a data))
  | .genericLongWrite, a :: data => .ok (.write (.genericLongWrite a data))
  | .genericShortP1, x => if x.length = p.extArgsP1 then .ok (.write (.genericShortP1 x)) else .error .badLength
  | .genericShortP2, x => if x.length = p.extArgsP2 then .ok (.write (.genericShortP2 x)) else .error .badLength
  | _, _ => .error .badLength

/-- The read half of the frame checker of R74. -/
def decodeReadFrame (v : ReadVariant) (rest : List Byte) : Except FrameInvalid WireCommand :=
  match v, rest with
  | .dcsShort, [a] => .ok (.read (.dcsShort a))
  | .genericShortP0, [] => .ok (.read .genericShortP0)
  | .genericShortP1, [a] => .ok (.read (.genericShortP1 a))
  | .genericShortP2, [a0, a1] => .ok (.read (.genericShortP2 a0 a1))
  | _, _ => .error .badLength

/-- The frame checker of R74, total on any byte list. Its verdict is the checker's own, no state of the block. -/
def decodeFrame (p : Platform) : List Byte → Except FrameInvalid WireCommand
  | [] => .error .empty
  | dt :: rest =>
    match writeVariantOf dt.toNat with
    | some v => decodeWriteFrame p v rest
    | none =>
      match readVariantOf dt.toNat with
      | some v => decodeReadFrame v rest
      | none => .error .unknownCode

/-! ### Request records -/

/-- An operand field of `w` bits, or the refusal `operand_range` (R78, R79 point 4). -/
def operandField (w v : Nat) : Except RefuseReason (BitVec w) :=
  if v < 2 ^ w then .ok (BitVec.ofNat w v) else .error .operandRange

/-- An operand field whose width is a parameter: the value itself, or the refusal `operand_range` (R78, R79 point 4). -/
def paramField (w v : Nat) : Except RefuseReason Nat :=
  if fits w v then .ok v else .error .operandRange

/-- The two fields `s_first` and `s_second` of a size (R68 format FM, R69). A size above 0xFFFF has a field too wide for a
byte, which R79 refuses. -/
def sizeFields (o : ByteOrder) (size : Nat) : List Nat :=
  match o with
  | .LE => [size % 256, size / 256]
  | .BE => [size / 256, size % 256]

/-- A WORD code: two bits, of which the value 3 is reserved (R67, R79 points 4 and 5). -/
def wordField (v : Nat) : Except RefuseReason (BitVec 2) := do
  let w ← operandField 2 v
  if wordCodeOK w then .ok w else .error .reservedWord

/-- A `write` request (R77): its DT must be of R64 (R79 point 2), its fields must have the shape of R68 (R79 point 3),
among them the two bytes of a size, in MRPS_BYTE_ORDER (R69). A command with no DT at all is `bad_fields`: DESIGN CHOICE,
log 15. -/
def decodeWrite (p : Platform) (cmd operands : List Nat) : Except RefuseReason Instr :=
  match cmd with
  | [] => .error .badFields
  | dt :: fields =>
    match writeVariantOf dt with
    | none => .error .unknownCode
    | some v =>
      match v, fields, operands with
      | .dcsShortP0, [a], [] => do return .writeDcsShortP0 (← operandField 8 a)
      | .dcsShortP1, [a, d], [] => do return .writeDcsShortP1 (← operandField 8 a) (← operandField 8 d)
      | .dcsLongWrite, [a], [dAddr, dLen] => do
        return .writeDcsLongWrite (← operandField 8 a) (← paramField p.addrBits dAddr) dLen
      | .genericShortP0, [], [] => .ok .writeGenericShortP0
      | .genericShortP1, [], [] => .ok .writeGenericShortP1
      | .genericShortP2, [], [] => .ok .writeGenericShortP2
      | .genericLongWrite, [a], [dAddr, dLen] => do
        return .writeGenericLongWrite (← operandField 8 a) (← paramField p.addrBits dAddr) dLen
      | .setMaximumReturnPacketSize, [first, second], [] => do
        return .writeSetMaximumReturnPacketSize
          (joinBytes p.mrpsByteOrder (← operandField 8 first) (← operandField 8 second))
      | _, _, _ => .error .badFields

/-- A `read` request (R77): its DT must be of R65 (R79 point 2), its fields must have the shape of R68 (R79 point 3). A
command with no DT at all is `bad_fields`: DESIGN CHOICE, log 15. -/
def decodeRead (p : Platform) (cmd operands : List Nat) : Except RefuseReason Instr :=
  match cmd with
  | [] => .error .badFields
  | dt :: fields =>
    match readVariantOf dt with
    | none => .error .unknownCode
    | some v =>
      match v, fields, operands with
      | .dcsShort, [a], [bAddr, n] => do
        return .readDcsShort (← operandField 8 a) (← paramField p.addrBits bAddr) n
      | .genericShortP0, [], [bAddr, n] => do
        return .readGenericShortP0 (← paramField p.addrBits bAddr) n
      | .genericShortP1, [a], [bAddr, n] => do
        return .readGenericShortP1 (← operandField 8 a) (← paramField p.addrBits bAddr) n
      | .genericShortP2, [a0, a1], [bAddr, n] => do
        return .readGenericShortP2 (← operandField 8 a0) (← operandField 8 a1)
          (← paramField p.addrBits bAddr) n
      | _, _, _ => .error .badFields

/-- The configuration record, its fields in the order of R81. -/
def decodeCfg (p : Platform) : List Nat → Except RefuseReason CtrlConfig
  | [aw, ah, hbp, hfp, vbp, vfp, hsw, vsw, hsyncPol, vsyncPol, dePol, pclkPol] => do
    return {
      aw := ← paramField p.cfgBits aw
      ah := ← paramField p.cfgBits ah
      hbp := ← paramField p.cfgBits hbp
      hfp := ← paramField p.cfgBits hfp
      vbp := ← paramField p.cfgBits vbp
      vfp := ← paramField p.cfgBits vfp
      hsw := ← paramField p.cfgBits hsw
      vsw := ← paramField p.cfgBits vsw
      hsyncPol := ← operandField 1 hsyncPol
      vsyncPol := ← operandField 1 vsyncPol
      dePol := ← operandField 1 dePol
      pclkPol := ← operandField 1 pclkPol }
  | _ => .error .badFields

/-- A control request (R77): no command, and the operand fields of its kind. Log 15. -/
def decodeControl (p : Platform) (k : RequestKind) (cmd operands : List Nat) : Except RefuseReason Instr :=
  match k, cmd, operands with
  | .enable, [], [i, ptr, pf, word] => do
    return .layerEnable i (← paramField p.addrBits ptr) (pixelFormatOf (← operandField 3 pf)) (← wordField word)
  | .swapFramebuffer, [], [i, ptr, word] => do
    return .layerSwapFramebuffer i (← paramField p.addrBits ptr) (← wordField word)
  | .isSwapPending, [], [i] => .ok (.layerIsSwapPending i)
  | .resizeBufferPitch, [], [i, width] => do
    return .layerResizeBufferPitch i (← paramField p.pitchBits width)
  | .init, [], fields => do return .ctrlInit (← decodeCfg p fields)
  | .clock, [], [] => .ok .ctrlClock
  | _, _, _ => .error .badFields

/-- The interface's decoder, total on any raw request: the admitted request, or the refusal by name (R79). It
reads the platform for the widths that are parameters and for MRPS_BYTE_ORDER. -/
def decode (p : Platform) (r : RawRequest) : Except RefuseReason Instr :=
  match requestKindOf r.op with
  | none => .error .unknownOp
  | some .write => decodeWrite p r.cmd r.operands
  | some .read => decodeRead p r.cmd r.operands
  | some k => decodeControl p k r.cmd r.operands

/-- The operand fields of a configuration record (R81). -/
def encodeCfg (c : CtrlConfig) : List Nat :=
  [c.aw, c.ah, c.hbp, c.hfp, c.vbp, c.vfp, c.hsw, c.vsw,
    c.hsyncPol.toNat, c.vsyncPol.toNat, c.dePol.toNat, c.pclkPol.toNat]

/-- The raw request record of a request (R77, R68, R69). -/
def encode (p : Platform) : Instr → RawRequest
  | .writeDcsShortP0 a => ⟨0x10, [0x05, a.toNat], []⟩
  | .writeDcsShortP1 a d => ⟨0x10, [0x15, a.toNat, d.toNat], []⟩
  | .writeDcsLongWrite a dAddr dLen => ⟨0x10, [0x39, a.toNat], [dAddr, dLen]⟩
  | .writeGenericShortP0 => ⟨0x10, [0x03], []⟩
  | .writeGenericShortP1 => ⟨0x10, [0x13], []⟩
  | .writeGenericShortP2 => ⟨0x10, [0x23], []⟩
  | .writeGenericLongWrite a dAddr dLen => ⟨0x10, [0x29, a.toNat], [dAddr, dLen]⟩
  | .writeSetMaximumReturnPacketSize size => ⟨0x10, 0x37 :: sizeFields p.mrpsByteOrder size.toNat, []⟩
  | .readDcsShort a bAddr n => ⟨0x11, [0x06, a.toNat], [bAddr, n]⟩
  | .readGenericShortP0 bAddr n => ⟨0x11, [0x04], [bAddr, n]⟩
  | .readGenericShortP1 a bAddr n => ⟨0x11, [0x14, a.toNat], [bAddr, n]⟩
  | .readGenericShortP2 a0 a1 bAddr n => ⟨0x11, [0x24, a0.toNat, a1.toNat], [bAddr, n]⟩
  | .layerEnable i ptr pf word => ⟨0x20, [], [i, ptr, (pixelFormatCode pf).toNat, word.toNat]⟩
  | .layerSwapFramebuffer i ptr word => ⟨0x21, [], [i, ptr, word.toNat]⟩
  | .layerIsSwapPending i => ⟨0x22, [], [i]⟩
  | .layerResizeBufferPitch i width => ⟨0x23, [], [i, width]⟩
  | .ctrlInit cfg => ⟨0x30, [], encodeCfg cfg⟩
  | .ctrlClock => ⟨0x31, [], []⟩

/-! ### The opcode table's words -/

/-- The `k`-th byte of a table word, byte 0 the least significant; the word has `nbits` bits and zeros above. -/
def tableByte (nbits w k : Nat) : Nat := w % 2 ^ nbits / 256 ^ k % 256

/-- The request of a write row's word: byte 0 is DT, the bytes after it the frame's argument bytes; the operands that
have no place in a frame are zero (R84). Log 16. -/
def tableWrite (nbits w : Nat) (v : WriteVariant) : RawRequest :=
  let dt := tableByte nbits w 0
  let b1 := tableByte nbits w 1
  let b2 := tableByte nbits w 2
  match v with
  | .dcsShortP0 => ⟨0x10, [dt, b1], []⟩
  | .dcsShortP1 => ⟨0x10, [dt, b1, b2], []⟩
  | .dcsLongWrite => ⟨0x10, [dt, b1], [0, 0]⟩
  | .genericShortP0 => ⟨0x10, [dt], []⟩
  | .genericShortP1 => ⟨0x10, [dt], []⟩
  | .genericShortP2 => ⟨0x10, [dt], []⟩
  | .genericLongWrite => ⟨0x10, [dt, b1], [0, 0]⟩
  | .setMaximumReturnPacketSize => ⟨0x10, [dt, b1, b2], []⟩

/-- The request of a read row's word, as `tableWrite`. -/
def tableRead (nbits w : Nat) (v : ReadVariant) : RawRequest :=
  let dt := tableByte nbits w 0
  let b1 := tableByte nbits w 1
  let b2 := tableByte nbits w 2
  match v with
  | .dcsShort => ⟨0x11, [dt, b1], [0, 0]⟩
  | .genericShortP0 => ⟨0x11, [dt], [0, 0]⟩
  | .genericShortP1 => ⟨0x11, [dt, b1], [0, 0]⟩
  | .genericShortP2 => ⟨0x11, [dt, b1, b2], [0, 0]⟩

/-- The request of a control row's label, with zeros for its operands. The labels of `write` and `read` are no row of
the table: their command is missing. -/
def tableControl : RequestKind → RawRequest
  | .write => ⟨0x10, [], []⟩
  | .read => ⟨0x11, [], []⟩
  | .enable => ⟨0x20, [], [0, 0, 0, 0]⟩
  | .swapFramebuffer => ⟨0x21, [], [0, 0, 0]⟩
  | .isSwapPending => ⟨0x22, [], [0]⟩
  | .resizeBufferPitch => ⟨0x23, [], [0, 0]⟩
  | .init => ⟨0x30, [], [0, 0, 0, 0, 0, 0, 0, 0, 0, 0, 0, 0]⟩
  | .clock => ⟨0x31, [], []⟩

/-- The raw request of a word of the opcode table, whose byte 0 is a row's match value: a discriminant for the DSI
rows, a label for the control rows (R84). 0x23 is both, and is read as the discriminant (R71). Log 16. -/
def tableRequest (nbits w : Nat) : RawRequest :=
  let b := tableByte nbits w 0
  match writeVariantOf b with
  | some v => tableWrite nbits w v
  | none =>
    match readVariantOf b with
    | some v => tableRead nbits w v
    | none =>
      match requestKindOf b with
      | some k => tableControl k
      | none => ⟨b, [], []⟩

/-- The instruction the decoder reads from a word of the opcode table, or none where it refuses. The request of a word
has zeros for every operand of a parametric width, so of the platform only MRPS_BYTE_ORDER matters; the reset platform,
which has LE, is named. -/
def decodeTableWord (nbits w : Nat) : Option Instr :=
  (decode Machine.resetPlatform (tableRequest nbits w)).toOption

end Sys2Proof
end

