-- ==== Sys2Proof/Machine/State.lean ====
section
/-! DEFINITION. The state of the block (R18), what it reads and writes outside itself (host memory, the results handed
to the host), and the model's own fields (the parameters, the agents' turns, the host's requests to come, the draws).
INVENTORY.md lists every piece with its rule. All of it is plain data. -/

namespace Sys2Proof.Machine

/-- The direction of a transaction or a wire entry (R24, R25). -/
inductive Direction where
  | W
  | R
  deriving DecidableEq, Repr, Inhabited

/-- The transaction in flight (R24). A write has no response: its `n` is 0 and it has no `b_addr`. -/
inductive InFlight where
  | write (frame : List Byte)
  | read (frame : List Byte) (n : Nat) (bAddr : Nat)
  deriving DecidableEq, Repr, Inhabited

/-- An entry of the wire log (R25). -/
structure WireFrame where
  dir : Direction
  bytes : List Byte
  ok : Bool
  deriving DecidableEq, Repr, Inhabited

/-- The two states of a layer (R27). -/
inductive LayerMode where
  | disabled
  | enabled
  deriving DecidableEq, Repr, Inhabited

/-- The registers of one layer (R27 to R34). `none` holds no value (R42). A pointer is a natural below 2^ADDR_BITS and the
pitch one below 2^PITCH_BITS, as the interface admits them (R78, R79; log 2); `LayerOK` says so of every run. -/
structure LayerRegs where
  /-- R27 -/
  mode : LayerMode
  /-- the pixel format given to `enable` (R28) -/
  pf : Option PixelFormat
  /-- the word width of the newest buffer pointer (R29) -/
  word : Option PixelWord
  /-- the displayed buffer (R30), ADDR_BITS wide -/
  cfba : Option Nat
  /-- the pending buffer, in the shadow register (R31), ADDR_BITS wide -/
  sfba : Option Nat
  /-- the SwapPending flag (R32) -/
  swp : Bool
  /-- the stride between scan lines, in pixels (R34), PITCH_BITS wide -/
  pitch : Option Nat
  deriving DecidableEq, Repr, Inhabited

/-- The registers of a layer after reset (R42). -/
def LayerRegs.reset : LayerRegs where
  mode := .disabled
  pf := none
  word := none
  cfba := none
  sfba := none
  swp := false
  pitch := none

/-- The fault codes of R146; 0x0D is unassigned. -/
inductive FaultCode where
  | swapBeforeEnable
  | enableWhileEnabled
  | swapWhilePending
  | footprintInvalid
  | bufferMisaligned
  | ownedBufferAccess
  | resizeBeforeEnable
  | pitchIllegal
  | readLen
  | notInitialised
  | initWhileEnabled
  | configIllegal
  | layerIndex
  | longDataTooLong
  deriving DecidableEq, Repr, Inhabited

/-- The OP of a fault record (R145): a request's, or that of a memory access that is no request. Log 14. -/
inductive FaultOp where
  | request (k : RequestKind)
  | hostStore
  | hostLoad
  | scanOut
  deriving DecidableEq, Repr, Inhabited

/-- A fault record of R145. -/
structure FaultRecord where
  code : FaultCode
  op : FaultOp
  operands : List Nat
  deriving DecidableEq, Repr, Inhabited

/-- The outcome a transaction returns to the host (R26). -/
inductive TxResult where
  | ok
  | err (e : TransportError)
  deriving DecidableEq, Repr, Inhabited

/-- What the block, or host memory, hands back to the host (R26, R51). The other requests return nothing. -/
inductive HostResult where
  | write (r : TxResult)
  | read (r : TxResult)
  | swapPending (flag : Bool)
  | clock (hz : Nat)
  | load (bytes : List Byte)
  deriving DecidableEq, Repr, Inhabited

/-- What the host does next (R63): a request, an access to its own memory (R51), or the polling loop of R82. -/
inductive HostAction where
  | request (r : RawRequest)
  | store (a : Nat) (bytes : List Byte)
  | load (a : Nat) (n : Nat)
  /-- `w: r <- layer.pending i; if r goto w`, the loop in R82's expansion of layer.swap_wait. Log 10. -/
  | pollSwap (i : Nat)
  deriving DecidableEq, Repr, Inhabited

/-- Host memory: the bytes that differ from what an unlisted address reads as, by rising address. Log 12. -/
abbrev Memory := List Host.Cell

/-- The whole machine. The first six fields are the block's state, exactly R18's tuple (`txn` and `wire` are
`dce.txn` and `dce.wire`); the next two lie outside the block; the rest are the model's own. -/
structure State where
  /-- the configuration `init` last applied (R19, R20) -/
  cfg : Option CtrlConfig
  /-- the transaction in flight (R23) -/
  txn : Option InFlight
  /-- the wire log, oldest first (R25) -/
  wire : List WireFrame
  /-- the layers' registers; their number is NUM_LAYERS (R44; log 3) -/
  layers : List LayerRegs
  /-- the sticky fault set (R36) -/
  faults : List FaultRecord
  /-- the run was refused (R37) -/
  refused : Bool
  /-- host memory (R46) -/
  mem : Memory
  /-- what has been returned to the host, oldest first (R26; log 24) -/
  results : List HostResult
  /-- the parameters of R9, which no step writes (log 1) -/
  platform : Platform
  /-- the host's requests and accesses to come, in issue order (R22; log 10) -/
  hostQueue : List HostAction
  /-- the turns to come (R13; log 9) -/
  sched : List Turn
  /-- how many turns the free schedule has given (log 9) -/
  ticks : Nat
  /-- the bytes the outside has lined up for the next draws (R12; log 8) -/
  tape : List Byte
  /-- how many bytes the free byte source has given (log 8) -/
  drawn : Nat
  deriving DecidableEq, Repr, Inhabited

/-- The state after reset (R42, R161) of a block with `extra + 1` layers on platform `p`. -/
def State.resetOn (p : Platform) (extra : Nat) : State where
  cfg := none
  txn := none
  wire := []
  layers := List.replicate (extra + 1) LayerRegs.reset
  faults := []
  refused := false
  mem := []
  results := []
  platform := p
  hostQueue := []
  sched := []
  ticks := 0
  tape := []
  drawn := 0

/-- The machine right after reset (R42, R161, R162). -/
def State.reset : State := State.resetOn resetPlatform resetExtraLayers

/-- How a step stops the run with a fault. Each constructor carries the final state: the state before the faulting
step with the fault record added to `faults`, and nothing else changed (R145). Log 13. Stopping is the spec's own
treatment of a contract violation (R144), so it is safe: the source leaves what follows undefined. -/
inductive Fault where
  /-- F01: `swap_framebuffer` on a Disabled layer (R119). Safe. -/
  | swapBeforeEnable (final : State)
  /-- F02: `enable` on an Enabled layer (R118). Safe. -/
  | enableWhileEnabled (final : State)
  /-- F03: `swap_framebuffer` while a swap is pending (R119). Safe. -/
  | swapWhilePending (final : State)
  /-- F04: a buffer, slice or access outside MEM_VALID or past 2^ADDR_BITS (R50, R85, R101, R118, R119, R121). Safe. -/
  | footprintInvalid (final : State)
  /-- F05: a buffer pointer that is no multiple of FB_ALIGN(word) (R118, R119). Safe. -/
  | bufferMisaligned (final : State)
  /-- F06: an access on the host's behalf inside the owned set (R51, R85, R101). Safe. -/
  | ownedBufferAccess (final : State)
  /-- F07: `resize_buffer_pitch` on a Disabled layer (R121). Safe. -/
  | resizeBeforeEnable (final : State)
  /-- F08: a new pitch below the active width (R121). Safe. -/
  | pitchIllegal (final : State)
  /-- F09: a response count the read variant does not admit (R101, R109). Safe. -/
  | readLen (final : State)
  /-- F0A: `enable` or `clock` before the first `init` (R118, R138). Safe. -/
  | notInitialised (final : State)
  /-- F0B: `init` while a layer is Enabled (R135). Safe. -/
  | initWhileEnabled (final : State)
  /-- F0C: `init` with no active width or no active height (R135). Safe. -/
  | configIllegal (final : State)
  /-- F0E: a layer index at or above NUM_LAYERS (R114). Safe. -/
  | layerIndex (final : State)
  /-- F0F: a long write above MAX_LONG_DATA (R85). Safe. -/
  | longDataTooLong (final : State)
  /-- A step from a state that holds a fault: after a fault no agent has a step (R145). Safe. -/
  | stopped (final : State)
  /-- A rule would read a register that holds no value (R42). The model's own, raised by `swap_framebuffer` and
  `resize_buffer_pitch` in states that no run reaches (R45). Safe. Log 17. -/
  | noValue (final : State)
  deriving DecidableEq, Repr

/-- How a step stops the run with a refusal (R147). Each of the spec's reasons carries the final state: the state
before the request with `refused` set. -/
inductive Refusal where
  /-- exec has no meaning for the instruction. No arm answers it. Safe. -/
  | notModelled (mnemonic : String)
  /-- `unknown_op`: a label that names no request (R79 point 1). Safe. -/
  | unknownOp (final : State)
  /-- `unknown_code`: a discriminant outside the closed sets, or of the other direction (R79 point 2). Safe. -/
  | unknownCode (final : State)
  /-- `bad_fields`: fields that do not match the format (R79 point 3), raised by the decoder alone, before any
  instruction. Safe. -/
  | badFields (final : State)
  /-- `operand_range`: an operand too wide for its field (R79 point 4). Safe. -/
  | operandRange (final : State)
  /-- `reserved_word`: the WORD code 3 (R79 point 5), which exec itself refuses too. Safe. -/
  | reservedWord (final : State)
  /-- A step from a refused state: the run has stopped (R147). Safe. -/
  | stopped (final : State)
  deriving DecidableEq, Repr

end Sys2Proof.Machine
end

