-- ==== Sys2Proof/Machine/Operands.lean ====
section
/-! DEFINITION. What a request's operands and the parameters of R9 stand for: pixel formats, word widths, alignment,
response counts, address ranges. -/

namespace Sys2Proof.Machine

/-- Bytes per pixel of a format, the table of R33. PRESUMED for the first five (D16): log 20. -/
def bpp : PixelFormat → Nat
  | .argb8888 => 4
  | .rgb888 => 3
  | .rgb565 => 2
  | .argb1555 => 2
  | .argb4444 => 2
  | .l8 => 1
  | .al44 => 1
  | .al88 => 2

/-- The width in bits a pixel word names (R29). -/
def wordBits : PixelWord → Nat
  | .w8 => 8
  | .w16 => 16
  | .w32 => 32

/-- FB_ALIGN(word), in bytes (R52). -/
def fbAlign (p : Platform) : PixelWord → Nat
  | .w8 => p.fbAlign8
  | .w16 => p.fbAlign16
  | .w32 => p.fbAlign32

/-- A buffer pointer is a multiple of FB_ALIGN(word) (R52). -/
def aligned (p : Platform) (w : PixelWord) (a : Nat) : Bool := a % fbAlign p w == 0

/-- A response count is one the rule admits. -/
def lenAdmits : LenRule → Nat → Bool
  | .any, _ => true
  | .oneOf counts, n => counts.contains n
  | .predicate label, n => Config.lenPredicate label n

/-- READ_LEN_OK(v, n) (R109). -/
def readLenOK (p : Platform) : ReadVariant → Nat → Bool
  | .dcsShort => lenAdmits p.lenDcsShort
  | .genericShortP0 => lenAdmits p.lenGenericShortP0
  | .genericShortP1 => lenAdmits p.lenGenericShortP1
  | .genericShortP2 => lenAdmits p.lenGenericShortP2

/-- `n <= MAX_LONG_DATA` (R85). -/
def longDataOK (p : Platform) (n : Nat) : Bool :=
  match p.maxLongData with
  | none => true
  | some m => n ≤ m

/-- The address range `base .. base + len - 1`; empty when `len` is 0. -/
structure Range where
  base : Nat
  len : Nat
  deriving DecidableEq, Repr, Inhabited

/-- The byte at address `x` lies in the range. -/
def rangeHas (r : Range) (x : Nat) : Bool := r.base ≤ x && x < r.base + r.len

/-- Some byte lies in both ranges. -/
def rangesMeet (r q : Range) : Bool := max r.base q.base < min (r.base + r.len) (q.base + q.len)

/-- Every byte of `r` lies in `q`, and `r` has a byte. -/
def rangeInside (r q : Range) : Bool :=
  0 < r.len && q.base ≤ r.base && r.base + r.len ≤ q.base + q.len

/-- MEM_VALID(a, n) (R56): one of the listed stretches holds the range, or the opaque predicate says so. Log 4. -/
def memValid (p : Platform) (a n : Nat) : Bool :=
  match p.memRule with
  | .regions list => list.any (fun r => r.lo ≤ a && a + n ≤ r.hi)
  | .predicate label => Config.memPredicate label a n

/-- The precondition of R50, which is R116's FootOK too: the bytes exist and do not pass 2^ADDR_BITS. -/
def accessOK (p : Platform) (a n : Nat) : Bool := a + n ≤ 2 ^ p.addrBits && memValid p a n

/-- The bytes of a buffer: pitch times active height times bytes per pixel, an unbounded natural (R116, R10). -/
def bufferSize (pitch ah : Nat) (pf : PixelFormat) : Nat := pitch * ah * bpp pf

/-- The operation label and the operands a request leaves in its fault record (R145). Log 14. -/
def requestKindOfInstr : Instr → RequestKind
  | .writeDcsShortP0 _ => .write
  | .writeDcsShortP1 _ _ => .write
  | .writeDcsLongWrite _ _ _ => .write
  | .writeGenericShortP0 => .write
  | .writeGenericShortP1 => .write
  | .writeGenericShortP2 => .write
  | .writeGenericLongWrite _ _ _ => .write
  | .writeSetMaximumReturnPacketSize _ => .write
  | .readDcsShort _ _ _ => .read
  | .readGenericShortP0 _ _ => .read
  | .readGenericShortP1 _ _ _ => .read
  | .readGenericShortP2 _ _ _ _ => .read
  | .layerEnable _ _ _ _ => .enable
  | .layerSwapFramebuffer _ _ _ => .swapFramebuffer
  | .layerIsSwapPending _ => .isSwapPending
  | .layerResizeBufferPitch _ _ => .resizeBufferPitch
  | .ctrlInit _ => .init
  | .ctrlClock => .clock

/-- The operands a request leaves in its fault record: its command, if any, then its operand fields (R77, R145). -/
def recordOperands (p : Platform) (i : Instr) : List Nat := (encode p i).cmd ++ (encode p i).operands

end Sys2Proof.Machine
end

