-- ==== Sys2Proof/Machine/Flags.lean ====
section
/-! DEFINITION. The block's one status flag per layer, SwapPending (R32, R38): what sets it, what clears it, and the
pointer registers that move with it. -/

namespace Sys2Proof.Machine

/-- `enable`'s writes to a layer: displayed at once, nothing pending, the pitch at the active width (R118).
Log 22. -/
def layerEnabled (p : Nat) (pf : PixelFormat) (w : PixelWord) (aw : Nat) : LayerRegs where
  mode := .enabled
  pf := some pf
  word := some w
  cfba := some p
  sfba := none
  swp := false
  pitch := some aw

/-- `swap_framebuffer`'s writes: the shadow pointer, the word width, SwapPending set (R119). -/
def layerSwapped (p : Nat) (w : PixelWord) (l : LayerRegs) : LayerRegs :=
  { l with sfba := some p, word := some w, swp := true }

/-- `resize_buffer_pitch`'s write: the pitch, at once and alone (R121, R122). -/
def layerPitched (width : Nat) (l : LayerRegs) : LayerRegs := { l with pitch := some width }

/-- The layer reloads at a vertical blank: it is Enabled with a swap pending (R126). -/
def reloads (l : LayerRegs) : Bool := l.mode == .enabled && l.swp

/-- The vertical-blank reload of one layer: the shadow becomes the displayed buffer and SwapPending clears (R126);
any other layer is unchanged (R127). -/
def layerReloaded (l : LayerRegs) : LayerRegs :=
  if reloads l then { l with cfba := l.sfba, sfba := none, swp := false } else l

end Sys2Proof.Machine
end

