-- ==== Sys2Proof/Machine/Ops.lean ====
section
/-! DEFINITION. The named operations over memory, registers and the wire, and the ways a step ends: a fault (R145), a
refusal (R147), a hold (R148). -/

namespace Sys2Proof.Machine

/-- What a step answers. -/
abbrev Out := Host.Outcome State Fault Refusal

/-! ### Faults, refusals, holds -/

/-- Adding to the sticky fault set (R36). -/
def addFault (r : FaultRecord) (s : State) : State :=
  if r ∈ s.faults then s else { s with faults := s.faults ++ [r] }

/-- The fault of a code of R146, with its final state. -/
def faultOf : FaultCode → State → Fault
  | .swapBeforeEnable => .swapBeforeEnable
  | .enableWhileEnabled => .enableWhileEnabled
  | .swapWhilePending => .swapWhilePending
  | .footprintInvalid => .footprintInvalid
  | .bufferMisaligned => .bufferMisaligned
  | .ownedBufferAccess => .ownedBufferAccess
  | .resizeBeforeEnable => .resizeBeforeEnable
  | .pitchIllegal => .pitchIllegal
  | .readLen => .readLen
  | .notInitialised => .notInitialised
  | .initWhileEnabled => .initWhileEnabled
  | .configIllegal => .configIllegal
  | .layerIndex => .layerIndex
  | .longDataTooLong => .longDataTooLong

/-- The code's number in R146; a label that no rule depends on. -/
def faultNumber : FaultCode → Nat
  | .swapBeforeEnable => 0x01
  | .enableWhileEnabled => 0x02
  | .swapWhilePending => 0x03
  | .footprintInvalid => 0x04
  | .bufferMisaligned => 0x05
  | .ownedBufferAccess => 0x06
  | .resizeBeforeEnable => 0x07
  | .pitchIllegal => 0x08
  | .readLen => 0x09
  | .notInitialised => 0x0A
  | .initWhileEnabled => 0x0B
  | .configIllegal => 0x0C
  | .layerIndex => 0x0E
  | .longDataTooLong => 0x0F

/-- `raise Fault(code)` (R145): the record joins the fault set, every other field stays as it was, the run stops. -/
def raiseFault (code : FaultCode) (op : FaultOp) (operands : List Nat) (s : State) : Out :=
  .fault (faultOf code (addFault ⟨code, op, operands⟩ s))

/-- `raise Fault(code)` by a request: the record keeps its label and operands (R145, R146). -/
def raiseBy (i : Instr) (code : FaultCode) (s : State) : Out :=
  raiseFault code (.request (requestKindOfInstr i)) (recordOperands s.platform i) s

/-- The refusal of a reason of R147, with its final state. -/
def refusalOf : RefuseReason → State → Refusal
  | .unknownOp => .unknownOp
  | .unknownCode => .unknownCode
  | .badFields => .badFields
  | .operandRange => .operandRange
  | .reservedWord => .reservedWord

/-- `refuse(reason)` (R147): the run is marked refused and stops. -/
def refuse (reason : RefuseReason) (s : State) : Out :=
  .refused (refusalOf reason { s with refused := true })

/-- `hold` (R12, R148): the request has no step now, so nothing changes. The step that offers the request keeps it at
the head of the host's queue (`hostTurn`). Log 11. -/
def hold (s : State) : Out := .next s

/-! ### Host memory -/

/-- What a byte that nothing has written reads as. DESIGN CHOICE, unsafe: log 12. -/
def unlistedByte : Byte := 0#8

/-- The canonical form: addresses strictly rising, and no entry equal to the unlisted byte. -/
def Memory.wf : Memory → Bool
  | [] => true
  | [c] => c.2 != unlistedByte
  | c :: d :: m => c.2 != unlistedByte && c.1 < d.1 && Memory.wf (d :: m)

/-- The byte at an address. -/
def memByte : Memory → Nat → Byte
  | [], _ => unlistedByte
  | c :: m, a => if a = c.1 then c.2 else memByte m a

/-- The entries with address `a` set to `v`, in the canonical form. -/
def memSet : Memory → Nat → Byte → Memory
  | [], a, v => if v = unlistedByte then [] else [(a, v)]
  | c :: m, a, v =>
    if a < c.1 then (if v = unlistedByte then c :: m else (a, v) :: c :: m)
    else if a = c.1 then (if v = unlistedByte then m else (a, v) :: m)
    else c :: memSet m a v

/-- The bytes `a .. a+n-1`, by rising address (R50, R48). -/
def memBytes (m : Memory) (a : Nat) : Nat → List Byte
  | 0 => []
  | n + 1 => memByte m a :: memBytes m (a + 1) n

/-- The bytes stored from `a` on, by rising address (R50). -/
def memSetBytes (m : Memory) (a : Nat) : List Byte → Memory
  | [] => m
  | v :: vs => memSetBytes (memSet m a v) (a + 1) vs

/-! ### Registers -/

/-- Writing layer `i`'s registers; no other layer changes (R44). -/
def setLayer (i : Nat) (l : LayerRegs) (s : State) : State := { s with layers := s.layers.set i l }

/-- Writing the configuration record whole (R135). -/
def setCfg (c : CtrlConfig) (s : State) : State := { s with cfg := some c }

/-- Starting a transaction (R85, R101). -/
def startTxn (t : InFlight) (s : State) : State := { s with txn := some t }

/-- `emit(frame)` (R12, R25): the wire log grows at its end. -/
def emit (w : WireFrame) (s : State) : State := { s with wire := s.wire ++ [w] }

/-- Handing a result to the host (R26). -/
def deliver (r : HostResult) (s : State) : State := { s with results := s.results ++ [r] }

/-- A transaction's end: the encoder is idle again (R86, R102, R103). -/
def endTxn (s : State) : State := { s with txn := none }

/-! ### Draws -/

/-- `draw Byte^n` (R12): the next `n` bytes the outside has lined up, and free bytes where it has too few. Log 8. -/
def drawnBytes (n : Nat) (s : State) : List Byte :=
  s.tape.take n ++ (List.range (n - s.tape.length)).map (fun k => Config.freeByte (s.drawn + k))

/-- The state after `draw Byte^n`: the bytes drawn are used up. -/
def afterDraw (n : Nat) (s : State) : State :=
  { s with tape := s.tape.drop n, drawn := s.drawn + (n - s.tape.length) }

/-! ### Footprints and ownership -/

/-- Foot(i, p) of R116 for a layer's registers: no range while a register it is computed from holds no value. -/
def footprint (cfg : Option CtrlConfig) (l : LayerRegs) (p : Option Nat) : Option Range :=
  match cfg, l.pitch, l.pf, p with
  | some c, some pitch, some pf, some a => some ⟨a, bufferSize pitch c.ah pf⟩
  | _, _, _, _ => none

/-- Owned(i) of R35: the displayed buffer's footprint, and the pending buffer's while a swap is pending. Log 17. -/
def layerOwned (cfg : Option CtrlConfig) (l : LayerRegs) : List Range :=
  match l.mode with
  | .disabled => []
  | .enabled =>
    (footprint cfg l l.cfba).toList ++ (if l.swp then (footprint cfg l l.sfba).toList else [])

/-- Owned of R35, over every layer. -/
def ownedRanges (s : State) : List Range := s.layers.flatMap (layerOwned s.cfg)

/-- The byte at address `x` is in the owned set. -/
def owned (s : State) (x : Nat) : Bool := (ownedRanges s).any (fun r => rangeHas r x)

/-- Some byte of `a .. a+n-1` is in the owned set: the hazard of R51. -/
def meetsOwned (s : State) (a n : Nat) : Bool := (ownedRanges s).any (fun r => rangesMeet ⟨a, n⟩ r)

/-- A read on the host's behalf is kept out of the owned set (R51, R85). -/
def readMeetsOwned (s : State) (a n : Nat) : Bool := !s.platform.hostReadOwnedAllowed && meetsOwned s a n

end Sys2Proof.Machine
end

