-- ==== Sys2Proof/Machine/Controller.lean ====
section
/-! DEFINITION. The display controller's two requests (43_display_controller.md, R135 and R138). -/

namespace Sys2Proof.Machine

/-- ctrl.init (R135): F0B, then F0C; then the record replaces the configuration whole. -/
def execCtrlInit (cfg : CtrlConfig) (s : State) : Out :=
  if s.layers.any (fun l => l.mode == .enabled) then raiseBy (.ctrlInit cfg) .initWhileEnabled s
  else if cfg.aw = 0 ∨ cfg.ah = 0 then raiseBy (.ctrlInit cfg) .configIllegal s
  else .next (setCfg cfg s)

/-- ctrl.clock (R138): F0A before the first `init`; then PIXEL_CLOCK_HZ of the configuration goes to the host. -/
def execCtrlClock (s : State) : Out :=
  match s.cfg with
  | none => raiseBy .ctrlClock .notInitialised s
  | some c => .next (deliver (.clock (Config.pixelClockHz c)) s)

end Sys2Proof.Machine
end

