-- ==== Sys2Proof/Machine/DsiRead.lean ====
section
/-! DEFINITION. The four DSI reads (41_dsi_read.md): issuing a read (R101). The completion (R102, R103) is the
transport's turn, in Transport.lean. -/

namespace Sys2Proof.Machine

/-- Issuing a read (R101): F09, then F04, then F06 (R150), and the encoded frame goes in flight with the response
buffer. -/
def issueRead (i : Instr) (c : ReadCommand) (bAddr : Nat) (n : Nat) (s : State) : Out :=
  match s.txn with
  | some _ => hold s
  | none =>
    if ¬ readLenOK s.platform (readVariantOfCommand c) n then raiseBy i .readLen s
    else if ¬ accessOK s.platform bAddr n then raiseBy i .footprintInvalid s
    else if meetsOwned s bAddr n then raiseBy i .ownedBufferAccess s
    else .next (startTxn (.read (encR c) n bAddr) s)

/-- read.DcsShort (R104). -/
def execReadDcsShort (a : Byte) (bAddr : Nat) (n : Nat) (s : State) : Out :=
  issueRead (.readDcsShort a bAddr n) (.dcsShort a) bAddr n s

/-- read.GenericShortP0 (R105). -/
def execReadGenericShortP0 (bAddr : Nat) (n : Nat) (s : State) : Out :=
  issueRead (.readGenericShortP0 bAddr n) .genericShortP0 bAddr n s

/-- read.GenericShortP1 (R106). -/
def execReadGenericShortP1 (a : Byte) (bAddr : Nat) (n : Nat) (s : State) : Out :=
  issueRead (.readGenericShortP1 a bAddr n) (.genericShortP1 a) bAddr n s

/-- read.GenericShortP2 (R107). -/
def execReadGenericShortP2 (a0 a1 : Byte) (bAddr : Nat) (n : Nat) (s : State) : Out :=
  issueRead (.readGenericShortP2 a0 a1 bAddr n) (.genericShortP2 a0 a1) bAddr n s

end Sys2Proof.Machine
end

