-- ==== Sys2Proof/Machine/DsiWrite.lean ====
section
/-! DEFINITION. The eight DSI writes (40_dsi_write.md): issuing a write (R85). The completion (R86) is the transport's
turn, in Transport.lean. -/

namespace Sys2Proof.Machine

/-- Issuing a write with no slice and no external bytes (R85): the encoded frame goes in flight. -/
def issueWrite (c : WriteCommand) (s : State) : Out :=
  match s.txn with
  | some _ => hold s
  | none => .next (startTxn (.write (encW s.platform.mrpsByteOrder c)) s)

/-- Issuing a long write (R85, R97): F0F, then F06, then F04 (R150), and the slice's bytes are read now. `mk` is the
command those bytes complete. -/
def issueLongWrite (i : Instr) (mk : List Byte → WriteCommand) (dAddr : Nat) (dLen : Nat) (s : State) : Out :=
  match s.txn with
  | some _ => hold s
  | none =>
    if ¬ longDataOK s.platform dLen then raiseBy i .longDataTooLong s
    else if readMeetsOwned s dAddr dLen then raiseBy i .ownedBufferAccess s
    else if ¬ accessOK s.platform dAddr dLen then raiseBy i .footprintInvalid s
    else
      .next (startTxn (.write (encW s.platform.mrpsByteOrder (mk (memBytes s.mem dAddr dLen)))) s)

/-- Issuing a write whose arguments come from outside (R70, R85): `n` bytes are drawn and follow the discriminant. -/
def issueExternalWrite (mk : List Byte → WriteCommand) (n : Nat) (s : State) : Out :=
  match s.txn with
  | some _ => hold s
  | none =>
    .next (startTxn (.write (encW s.platform.mrpsByteOrder (mk (drawnBytes n s)))) (afterDraw n s))

/-- write.DcsShortP0 (R87). -/
def execWriteDcsShortP0 (a : Byte) (s : State) : Out := issueWrite (.dcsShortP0 a) s

/-- write.DcsShortP1 (R88). -/
def execWriteDcsShortP1 (a d : Byte) (s : State) : Out := issueWrite (.dcsShortP1 a d) s

/-- write.DcsLongWrite (R89). -/
def execWriteDcsLongWrite (a : Byte) (dAddr : Nat) (dLen : Nat) (s : State) : Out :=
  issueLongWrite (.writeDcsLongWrite a dAddr dLen) (.dcsLongWrite a) dAddr dLen s

/-- write.GenericShortP0 (R90). -/
def execWriteGenericShortP0 (s : State) : Out := issueWrite .genericShortP0 s

/-- write.GenericShortP1 (R91). -/
def execWriteGenericShortP1 (s : State) : Out := issueExternalWrite .genericShortP1 s.platform.extArgsP1 s

/-- write.GenericShortP2 (R92). -/
def execWriteGenericShortP2 (s : State) : Out := issueExternalWrite .genericShortP2 s.platform.extArgsP2 s

/-- write.GenericLongWrite (R93). -/
def execWriteGenericLongWrite (a : Byte) (dAddr : Nat) (dLen : Nat) (s : State) : Out :=
  issueLongWrite (.writeGenericLongWrite a dAddr dLen) (.genericLongWrite a) dAddr dLen s

/-- write.SetMaximumReturnPacketSize (R94). It sets no limit on later reads (R112). -/
def execWriteSetMaximumReturnPacketSize (size : BitVec 16) (s : State) : Out :=
  issueWrite (.setMaximumReturnPacketSize size) s

end Sys2Proof.Machine
end

