-- ==== Sys2Proof/Machine/Layer.lean ====
section
/-! DEFINITION. The four layer requests (42_display_layer.md, R114, R118 to R121). The checks stand in the order of
each rule's pseudocode, which is R150's. -/

namespace Sys2Proof.Machine

/-- layer.enable (R118): F0E, F0A, F02, F05, F04. The reserved WORD code is refused first (R79, R150). -/
def execLayerEnable (i : Nat) (p : Nat) (pf : PixelFormat) (word : BitVec 2) (s : State) : Out :=
  let ins := Instr.layerEnable i p pf word
  match pixelWordOf word with
  | none => refuse .reservedWord s
  | some w =>
    match s.layers[i]? with
    | none => raiseBy ins .layerIndex s
    | some l =>
      match s.cfg with
      | none => raiseBy ins .notInitialised s
      | some c =>
        if l.mode = .enabled then raiseBy ins .enableWhileEnabled s
        else if ¬ aligned s.platform w p then raiseBy ins .bufferMisaligned s
        else if ¬ accessOK s.platform p (bufferSize c.aw c.ah pf) then
          raiseBy ins .footprintInvalid s
        else .next (setLayer i (layerEnabled p pf w c.aw) s)

/-- layer.swap_framebuffer (R119): F0E, F01, F03, F05, F04. The size needs the pitch, the format and the active
height; where one of them holds no value no rule gives an outcome (R42; log 17). -/
def execLayerSwapFramebuffer (i : Nat) (p : Nat) (word : BitVec 2) (s : State) : Out :=
  let ins := Instr.layerSwapFramebuffer i p word
  match pixelWordOf word with
  | none => refuse .reservedWord s
  | some w =>
    match s.layers[i]? with
    | none => raiseBy ins .layerIndex s
    | some l =>
      if l.mode = .disabled then raiseBy ins .swapBeforeEnable s
      else if l.swp then raiseBy ins .swapWhilePending s
      else if ¬ aligned s.platform w p then raiseBy ins .bufferMisaligned s
      else
        match footprint s.cfg l (some p) with
        | none => .fault (.noValue s)
        | some foot =>
          if ¬ accessOK s.platform foot.base foot.len then raiseBy ins .footprintInvalid s
          else .next (setLayer i (layerSwapped p w l) s)

/-- layer.is_swap_pending (R120): F0E only; the flag goes to the host and nothing is written. -/
def execLayerIsSwapPending (i : Nat) (s : State) : Out :=
  match s.layers[i]? with
  | none => raiseBy (.layerIsSwapPending i) .layerIndex s
  | some l => .next (deliver (.swapPending l.swp) s)

/-- The buffers a new pitch must fit (R121): the displayed one, and the pending one while a swap is pending. `none`
where a register that is read holds no value. -/
def pitchFootprints (cfg : Option CtrlConfig) (l : LayerRegs) : Option (List Range) :=
  match footprint cfg l l.cfba with
  | none => none
  | some shown =>
    if l.swp then
      match footprint cfg l l.sfba with
      | none => none
      | some pending => some [shown, pending]
    else some [shown]

/-- layer.resize_buffer_pitch (R121): F0E, F07, F08, F04; then the pitch changes at once. -/
def execLayerResizeBufferPitch (i : Nat) (width : Nat) (s : State) : Out :=
  let ins := Instr.layerResizeBufferPitch i width
  match s.layers[i]? with
  | none => raiseBy ins .layerIndex s
  | some l =>
    if l.mode = .disabled then raiseBy ins .resizeBeforeEnable s
    else
      match s.cfg with
      | none => .fault (.noValue s)
      | some c =>
        if width < c.aw then raiseBy ins .pitchIllegal s
        else
          match pitchFootprints s.cfg (layerPitched width l) with
          | none => .fault (.noValue s)
          | some feet =>
            if ¬ feet.all (fun f => accessOK s.platform f.base f.len) then raiseBy ins .footprintInvalid s
            else .next (setLayer i (layerPitched width l) s)

end Sys2Proof.Machine
end

