-- ==== Sys2Proof/Machine/Dispatch.lean ====
section
/-! DEFINITION. One arm per request of the opcode table. -/

namespace Sys2Proof.Machine

def exec (i : Instr) (s : State) : Host.Outcome State Fault Refusal :=
  match i with
  | .writeDcsShortP0 a => Sys2Proof.Machine.execWriteDcsShortP0 a s
  | .writeDcsShortP1 a d => Sys2Proof.Machine.execWriteDcsShortP1 a d s
  | .writeDcsLongWrite a dAddr dLen => Sys2Proof.Machine.execWriteDcsLongWrite a dAddr dLen s
  | .writeGenericShortP0 => Sys2Proof.Machine.execWriteGenericShortP0 s
  | .writeGenericShortP1 => Sys2Proof.Machine.execWriteGenericShortP1 s
  | .writeGenericShortP2 => Sys2Proof.Machine.execWriteGenericShortP2 s
  | .writeGenericLongWrite a dAddr dLen => Sys2Proof.Machine.execWriteGenericLongWrite a dAddr dLen s
  | .writeSetMaximumReturnPacketSize size => Sys2Proof.Machine.execWriteSetMaximumReturnPacketSize size s
  | .readDcsShort a bAddr n => Sys2Proof.Machine.execReadDcsShort a bAddr n s
  | .readGenericShortP0 bAddr n => Sys2Proof.Machine.execReadGenericShortP0 bAddr n s
  | .readGenericShortP1 a bAddr n => Sys2Proof.Machine.execReadGenericShortP1 a bAddr n s
  | .readGenericShortP2 a0 a1 bAddr n => Sys2Proof.Machine.execReadGenericShortP2 a0 a1 bAddr n s
  | .layerEnable layer p pf word => Sys2Proof.Machine.execLayerEnable layer p pf word s
  | .layerSwapFramebuffer layer p word => Sys2Proof.Machine.execLayerSwapFramebuffer layer p word s
  | .layerIsSwapPending layer => Sys2Proof.Machine.execLayerIsSwapPending layer s
  | .layerResizeBufferPitch layer width => Sys2Proof.Machine.execLayerResizeBufferPitch layer width s
  | .ctrlInit cfg => Sys2Proof.Machine.execCtrlInit cfg s
  | .ctrlClock => Sys2Proof.Machine.execCtrlClock s

end Sys2Proof.Machine
end

