-- ==== Sys2Proof/Machine/Display.lean ====
section
/-! DEFINITION. The hardware's own steps on the layers: the vertical-blank reload (R126) and the scan-out read
(R123). -/

namespace Sys2Proof.Machine

/-- The vertical blank (R126): every layer with a pending swap reloads, in one step. Before the first `init` the timing
generator has no step (R128), and its turn passes. Log 9. -/
def vblank (s : State) : Out :=
  match s.cfg with
  | none => .next s
  | some _ => .next { s with layers := s.layers.map layerReloaded }

/-- The scan-out engine may read `a .. a+n-1` for layer `i` now: the layer is Enabled, the controller initialised, and
the bytes lie in the displayed buffer's footprint (R123, R53). -/
def scanEnabled (i : Nat) (a : Nat) (n : Nat) (s : State) : Bool :=
  match s.layers[i]? with
  | none => false
  | some l =>
    match l.mode, footprint s.cfg l l.cfba with
    | .enabled, some foot => rangeInside ⟨a, n⟩ foot
    | _, _ => false

/-- A scan-out read (R123): it writes no state, and its values are unobserved (R53). Where the engine may not make the
read its turn passes. MemRead's precondition (R50) still stands. Log 23. -/
def scanRead (i : Nat) (a : Nat) (n : Nat) (s : State) : Out :=
  if ¬ scanEnabled i a n s then .next s
  else if ¬ accessOK s.platform a n then raiseFault .footprintInvalid .scanOut [i, a, n] s
  else .next s

end Sys2Proof.Machine
end

