-- ==== Sys2Proof/Machine/HostMemory.lean ====
section
/-! DEFINITION. The host's own loads and stores of host memory, with the ownership hazard check (R51). -/

namespace Sys2Proof.Machine

/-- HostWrite (R51): F06 inside the owned set, F04 outside the memory that exists (R50). -/
def hostStore (a : Nat) (bytes : List Byte) (s : State) : Out :=
  if meetsOwned s a bytes.length then raiseFault .ownedBufferAccess .hostStore [a, bytes.length] s
  else if ¬ accessOK s.platform a bytes.length then
    raiseFault .footprintInvalid .hostStore [a, bytes.length] s
  else .next { s with mem := memSetBytes s.mem a bytes }

/-- HostRead (R51): F06 inside the owned set unless reads there are allowed, F04 outside the memory that exists. -/
def hostLoad (a : Nat) (n : Nat) (s : State) : Out :=
  if readMeetsOwned s a n then raiseFault .ownedBufferAccess .hostLoad [a, n] s
  else if ¬ accessOK s.platform a n then raiseFault .footprintInvalid .hostLoad [a, n] s
  else .next (deliver (.load (memBytes s.mem a n)) s)

end Sys2Proof.Machine
end

