-- ==== Sys2Proof/Machine/Transport.lean ====
section
/-! DEFINITION. The transport's steps: completing the transaction in flight (R86, R102, R103). -/

namespace Sys2Proof.Machine

/-- The bytes of a frame that reached the wire: all of it on Ok, any prefix on Err (R86, R103). -/
def framePrefix (k : Option Nat) (frame : List Byte) : List Byte :=
  match k with
  | none => frame
  | some k => frame.take k

/-- Completing a write (R86). -/
def completeWrite (frame : List Byte) (r : TxResult) (k : Option Nat) (s : State) : Out :=
  .next (endTxn (deliver (.write r) (emit ⟨.W, framePrefix k frame, r = .ok⟩ s)))

/-- Completing a read (R102, R103): the response, or arbitrary bytes after an error, fills the caller's buffer. The
write's precondition (R50) was checked at issue; a state where it fails faults with F04. Log 25. -/
def completeRead (frame : List Byte) (n : Nat) (bAddr : Nat) (r : TxResult) (k : Option Nat) (s : State) : Out :=
  if ¬ accessOK s.platform bAddr n then raiseFault .footprintInvalid (.request .read) [bAddr, n] s
  else
    let filled := { afterDraw n s with mem := memSetBytes s.mem bAddr (drawnBytes n s) }
    .next (endTxn (deliver (.read r) (emit ⟨.R, framePrefix k frame, r = .ok⟩ filled)))

/-- The transport completes whatever is in flight; with nothing in flight it has no step (R86, R102), and its turn
passes. Log 9. -/
def complete (r : TxResult) (k : Option Nat) (s : State) : Out :=
  match s.txn with
  | none => .next s
  | some (.write frame) => completeWrite frame r k s
  | some (.read frame n bAddr) => completeRead frame n bAddr r k s

end Sys2Proof.Machine
end

