-- ==== Sys2Proof/Machine/Agents.lean ====
section
/-! DEFINITION. The agents' turns (R8, R13): the host's next action, and which agent moves. -/

namespace Sys2Proof.Machine

/-- One round of the polling loop of R82: the request `is_swap_pending(i)`, and while it answers true the host polls
again. Any number of rounds may pass before the vertical blank (R133). -/
def hostPoll (i : Nat) (s : State) : Out :=
  match exec (.layerIsSwapPending i) s with
  | .next t =>
    if t.results.getLast? = some (.swapPending true) then .next { t with hostQueue := .pollSwap i :: t.hostQueue }
    else .next t
  | .fault r => .fault r
  | .refused r => .refused r

/-- layer.swap_wait (R82): the swap request, then the polling loop. -/
def swapWait (pl : Platform) (i : Nat) (p : Nat) (word : BitVec 2) : List HostAction :=
  [.request (encode pl (.layerSwapFramebuffer i p word)), .pollSwap i]

/-- One action of the host (R63): a request is decoded at the interface, then refused by name (R79) or performed; a
memory access is checked and made (R51). -/
def hostPerform (act : HostAction) (s : State) : Out :=
  match act with
  | .request r =>
    match decode s.platform r with
    | .error reason => refuse reason s
    | .ok i => exec i s
  | .store a bytes => hostStore a bytes s
  | .load a n => hostLoad a n s
  | .pollSwap i => hostPoll i s

/-- The host's turn. While its transaction is in flight the one host has no step (R100), and a host with nothing to do
takes none; otherwise it performs its next action. Log 11. -/
def hostTurn (s : State) : Out :=
  match s.txn with
  | some _ => .next s
  | none =>
    match s.hostQueue with
    | [] => .next s
    | act :: rest => hostPerform act { s with hostQueue := rest }

/-- The turn that comes next: the first one scheduled, or a free value (R13). Log 9. -/
def nextTurn (s : State) : Turn :=
  match s.sched with
  | [] => Config.freeTurn s.ticks
  | t :: _ => t

/-- The state with that turn used up. -/
def afterTurn (s : State) : State :=
  match s.sched with
  | [] => { s with ticks := s.ticks + 1 }
  | _ :: ts => { s with sched := ts }

/-- One agent's step (R8, R43). -/
def takeTurn (t : Turn) (s : State) : Out :=
  match t with
  | .host => hostTurn s
  | .completeOk => complete .ok none s
  | .completeErr e k => complete (.err e) (some k) s
  | .vblank => vblank s
  | .scan i a n => scanRead i a n s

/-- The run goes on: no fault has been recorded and no request refused (R145, R147). -/
def running (s : State) : Bool := s.faults.isEmpty && !s.refused

/-- What a stopped run answers: after a fault, or a refusal, no agent has a step (R145, R147). -/
def stoppedOutcome (s : State) : Out :=
  if s.faults.isEmpty then .refused (.stopped s) else .fault (.stopped s)

/-- The host is about to issue a request it has been given from outside: the request stands at the head of its queue,
and the next turn is its own. -/
def placeRequest (r : RawRequest) (s : State) : State :=
  { s with hostQueue := .request r :: s.hostQueue, sched := .host :: s.sched }

end Sys2Proof.Machine
end

