-- ==== Sys2Proof/Machine/Step.lean ====
section
/-! DEFINITION. One step of the whole machine: one atomic step of one agent (R13). -/

namespace Sys2Proof.Machine

/-- One atomic step of the agent whose turn it is, unless the run has stopped (R13, R145, R147). -/
def step (s : State) : Host.Outcome State Fault Refusal :=
  if running s then takeTurn (nextTurn s) (afterTurn s) else stoppedOutcome s

/-- The request of an opcode-table word, placed so that the very next step performs it. Log 10, 16. -/
def State.withFetchWord (s : State) (nbits w : Nat) : State := placeRequest (tableRequest nbits w) s

end Sys2Proof.Machine
end

