-- ==== Sys2Proof/Safety.lean ====
section
/-! DEFINITION. What a good state and a good run are: the invariants of R45 and of the memory, the frames in flight and
on the wire, and the fairness assumptions of R133 and R177. -/

namespace Sys2Proof.Machine

/-- Host memory keeps its canonical form, and lists no address past the address space (R46). -/
def MemOK (s : State) : Prop := s.mem.wf = true ∧ ∀ c ∈ s.mem, c.1 < 2 ^ s.platform.addrBits

/-- The registers of one layer are as R45 points 1 to 3 say, and what the layer owns is memory that exists: the pitch
is at least the active width (R121), both footprints pass FootOK (R118, R119, R121), and the pending pointer is a
multiple of its word's alignment (R119). Each register fits its width (R30, R31, R34): the pitch too, unless CFG_BITS
exceeds PITCH_BITS, where `enable` may set it to a wider active width (log 22). -/
def LayerOK (p : Platform) (cfg : Option CtrlConfig) (l : LayerRegs) : Prop :=
  match l.mode with
  | .disabled => l.swp = false ∧ l.cfba = none ∧ l.sfba = none
  | .enabled =>
    ∃ c pf w shown pitch, cfg = some c ∧ l.pf = some pf ∧ l.word = some w ∧ l.cfba = some shown ∧
      l.pitch = some pitch ∧ c.aw ≤ pitch ∧ (p.cfgBits ≤ p.pitchBits → pitch < 2 ^ p.pitchBits) ∧
      shown < 2 ^ p.addrBits ∧ accessOK p shown (bufferSize pitch c.ah pf) = true ∧
      (l.swp = true ↔ l.sfba ≠ none) ∧
      ∀ pending, l.sfba = some pending → pending < 2 ^ p.addrBits ∧ aligned p w pending = true ∧
        accessOK p pending (bufferSize pitch c.ah pf) = true

/-- The controller's configuration is legal and its fields fit their width (R137), and every layer is as `LayerOK`
says. -/
def LayersOK (s : State) : Prop :=
  (∀ c, s.cfg = some c → c.aw ≠ 0 ∧ c.ah ≠ 0 ∧ cfgFits s.platform c = true) ∧
    ∀ l ∈ s.layers, LayerOK s.platform s.cfg l

/-- The transaction in flight carries a frame of its direction (R24, R74); a read's response buffer is at an address
(R78), exists, and lies outside the owned set (R101). -/
def TxnOK (s : State) : Prop :=
  match s.txn with
  | none => True
  | some (.write frame) => ∃ c, decodeFrame s.platform frame = .ok (.write c)
  | some (.read frame n bAddr) =>
    (∃ c, decodeFrame s.platform frame = .ok (.read c) ∧ readLenOK s.platform (readVariantOfCommand c) n = true) ∧
      bAddr < 2 ^ s.platform.addrBits ∧ accessOK s.platform bAddr n = true ∧ ∀ x, bAddr ≤ x → x < bAddr + n → owned s x = false

/-- A wire entry's direction is the one its frame's byte 0 names (R71). -/
def dirMatches : Direction → WireCommand → Prop
  | .W, .write _ => True
  | .R, .read _ => True
  | _, _ => False

/-- Every wire entry holds a prefix of a frame of its direction, and the whole frame where it is marked ok (R25, R54). -/
def WireOK (s : State) : Prop :=
  ∀ w ∈ s.wire, ∃ frame c, decodeFrame s.platform frame = .ok c ∧ dirMatches w.dir c ∧ w.bytes <+: frame ∧
    (w.ok = true → w.bytes = frame)

/-- The invariant of every state that a run without a fault reaches. -/
def Inv (s : State) : Prop := MemOK s ∧ LayersOK s ∧ TxnOK s ∧ WireOK s

/-- An infinite run under a schedule: turn `k` is `turns k`, and no step faults or refuses. Every infinite run of `step` is
one, with the turns that `nextTurn` gives; the schedule is spelled out because agents may interleave in any order (R13). -/
def ScheduledRun (turns : Nat → Turn) (run : Nat → State) : Prop :=
  ∀ k, running (run k) = true ∧ takeTurn (turns k) (afterTurn (run k)) = .next (run (k + 1))

/-- VBLANK_FAIR (R133): once the controller stays initialised, vertical blanks never cease. -/
def VblankFair (turns : Nat → Turn) (run : Nat → State) : Prop :=
  (∃ m, ∀ k, m ≤ k → (run k).cfg ≠ none) → ∀ m, ∃ k, m ≤ k ∧ turns k = .vblank

/-- TRANSPORT_FAIR (R177): every transaction in flight is completed after finitely many steps. -/
def TransportFair (turns : Nat → Turn) (run : Nat → State) : Prop :=
  ∀ m, (run m).txn ≠ none → ∃ k, m ≤ k ∧ (turns k = .completeOk ∨ ∃ e j, turns k = .completeErr e j)

/-- MEM_VALID(a, n) (R9, R56), by its rule: one stretch of memory holds the bytes, or the predicate says so. -/
def MemValid : MemRule → Nat → Nat → Prop
  | .regions list, a, n => ∃ r ∈ list, r.lo ≤ a ∧ a + n ≤ r.hi
  | .predicate label, a, n => Config.memPredicate label a n = true

/-- The bytes `a .. a+n-1` exist: they do not pass 2^ADDR_BITS, and MEM_VALID holds of them (R50, R56). -/
def BytesExist (p : Platform) (a n : Nat) : Prop := a + n ≤ 2 ^ p.addrBits ∧ MemValid p.memRule a n

/-- MEM_VALID means that each of the bytes exists (R9): where it holds of a range, it holds of every part of the range
that has a byte. Every list of regions has this; of an arbitrary predicate it is a hypothesis. Log 4. -/
def MemValidParts (p : Platform) : Prop :=
  ∀ a n b m, MemValid p.memRule a n → 0 < m → a ≤ b → b + m ≤ a + n → MemValid p.memRule b m

/-- No byte of `a .. a+n-1` is in the owned set (R51). -/
def FreeOfOwned (s : State) (a n : Nat) : Prop := ∀ x, a ≤ x → x < a + n → owned s x = false

end Sys2Proof.Machine
end

