-- ==== Sys2Proof/Certificates/Slice0/Obligations.lean ====
section
/-! DEFINITION. The statements for the provers. Each docstring names the rule it formalises. A statement about every
state holds for every value of the parameters of R9, which the state carries (log 1). -/

open Sys2Proof Sys2Proof.Machine

/-! ### Encodings -/

/-- R64, R72, R95: the write discriminants; the frame of every write command, the size's bytes by value; and byte 0 of a
frame, which is its variant's discriminant whatever the arguments and the data. -/
def Obligations.WriteFrameBytes : Prop :=
  (discW .dcsShortP0 = 0x05#8 ∧ discW .dcsShortP1 = 0x15#8 ∧ discW .dcsLongWrite = 0x39#8 ∧
    discW .genericShortP0 = 0x03#8 ∧ discW .genericShortP1 = 0x13#8 ∧ discW .genericShortP2 = 0x23#8 ∧
    discW .genericLongWrite = 0x29#8 ∧ discW .setMaximumReturnPacketSize = 0x37#8) ∧
  (∀ (o : ByteOrder) (a d : Byte) (data x : List Byte) (size : BitVec 16),
    encW o (.dcsShortP0 a) = [0x05#8, a] ∧
    encW o (.dcsShortP1 a d) = [0x15#8, a, d] ∧
    encW o (.dcsLongWrite a data) = [0x39#8, a] ++ data ∧
    encW o .genericShortP0 = [0x03#8] ∧
    encW o (.genericShortP1 x) = [0x13#8] ++ x ∧
    encW o (.genericShortP2 x) = [0x23#8] ++ x ∧
    encW o (.genericLongWrite a data) = [0x29#8, a] ++ data ∧
    encW .LE (.setMaximumReturnPacketSize size) =
      [0x37#8, BitVec.ofNat 8 (size.toNat % 256), BitVec.ofNat 8 (size.toNat / 256)] ∧
    encW .BE (.setMaximumReturnPacketSize size) =
      [0x37#8, BitVec.ofNat 8 (size.toNat / 256), BitVec.ofNat 8 (size.toNat % 256)]) ∧
  (∀ o c, (encW o c).head? = some (discW (writeVariantOfCommand c))) ∧
  ∀ o o' c c', writeVariantOfCommand c = writeVariantOfCommand c' → (encW o c).head? = (encW o' c').head?

/-- R65, R108: the read discriminants and the frame of every read command. -/
def Obligations.ReadFrameBytes : Prop :=
  (discR .dcsShort = 0x06#8 ∧ discR .genericShortP0 = 0x04#8 ∧ discR .genericShortP1 = 0x14#8 ∧
    discR .genericShortP2 = 0x24#8) ∧
  (∀ a a0 a1, encR (.dcsShort a) = [0x06#8, a] ∧ encR .genericShortP0 = [0x04#8] ∧
    encR (.genericShortP1 a) = [0x14#8, a] ∧ encR (.genericShortP2 a0 a1) = [0x24#8, a0, a1]) ∧
  ∀ c, (encR c).head? = some (discR (readVariantOfCommand c))

/-- From R71: the twelve discriminants are the listed bytes, pairwise distinct; so byte 0 of a frame names its variant and
its direction. -/
def Obligations.ByteZeroNamesVariantAndDirection : Prop :=
  (∀ b, (∃ v, discW v = b) ↔
    b ∈ [0x03#8, 0x05#8, 0x13#8, 0x15#8, 0x23#8, 0x29#8, 0x37#8, 0x39#8]) ∧
  (∀ b, (∃ v, discR v = b) ↔ b ∈ [0x04#8, 0x06#8, 0x14#8, 0x24#8]) ∧
  (∀ o o' c c', (encW o c).head? = (encW o' c').head? → writeVariantOfCommand c = writeVariantOfCommand c') ∧
  (∀ c c', (encR c).head? = (encR c').head? → readVariantOfCommand c = readVariantOfCommand c') ∧
  ∀ o c c', (encW o c).head? ≠ (encR c').head?

/-- From R66, R67, R33: the eight pixel-format codes, every code used; the WORD codes, of which 3 names no width; and
the bytes per pixel. The codes are the spec's reading of the source's list (log 21), and five of the sizes are taken
from the formats' names (log 20). -/
def Obligations.PixelFormatAndWordTables : Prop :=
  (pixelFormatCode .argb8888 = 0#3 ∧ pixelFormatCode .rgb888 = 1#3 ∧ pixelFormatCode .rgb565 = 2#3 ∧
    pixelFormatCode .argb1555 = 3#3 ∧ pixelFormatCode .argb4444 = 4#3 ∧ pixelFormatCode .l8 = 5#3 ∧
    pixelFormatCode .al44 = 6#3 ∧ pixelFormatCode .al88 = 7#3) ∧
  (∀ pf, pixelFormatOf (pixelFormatCode pf) = pf) ∧ (∀ code, pixelFormatCode (pixelFormatOf code) = code) ∧
  (pixelWordOf 0#2 = some .w8 ∧ pixelWordOf 1#2 = some .w16 ∧ pixelWordOf 2#2 = some .w32 ∧
    pixelWordOf 3#2 = none) ∧
  bpp .argb8888 = 4 ∧ bpp .rgb888 = 3 ∧ bpp .rgb565 = 2 ∧ bpp .argb1555 = 2 ∧ bpp .argb4444 = 2 ∧ bpp .l8 = 1 ∧
    bpp .al44 = 1 ∧ bpp .al88 = 2

/-- From R74, R95, R108: the frame checker reads every encoded command back, whatever its operands, data and external
bytes (as many as the platform appends). -/
def Obligations.FrameDecodesToItsCommand : Prop :=
  ∀ p : Platform,
    (∀ c : WriteCommand,
      (∀ x, c = .genericShortP1 x → x.length = p.extArgsP1) →
      (∀ x, c = .genericShortP2 x → x.length = p.extArgsP2) →
      decodeFrame p (encW p.mrpsByteOrder c) = .ok (.write c)) ∧
    ∀ c : ReadCommand, decodeFrame p (encR c) = .ok (.read c)

/-- From R74: a byte list that the frame checker accepts is the frame of the command it answers, so every frame has one
meaning. -/
def Obligations.DecodedFrameIsTheEncoding : Prop :=
  ∀ (p : Platform) (bs : List Byte),
    (∀ c, decodeFrame p bs = .ok (.write c) →
      encW p.mrpsByteOrder c = bs ∧ (∀ x, c = .genericShortP1 x → x.length = p.extArgsP1) ∧
        (∀ x, c = .genericShortP2 x → x.length = p.extArgsP2)) ∧
    ∀ c, decodeFrame p bs = .ok (.read c) → encR c = bs

/-- From R74: the checker's three refusals. The empty list is `empty`; a byte 0 outside the twelve codes is
`unknown_code` whatever follows; a known byte 0 with the wrong number of bytes is `bad_length`. -/
def Obligations.FrameCheckerVerdicts : Prop :=
  ∀ p : Platform,
    decodeFrame p [] = .error .empty ∧
    (∀ b rest, (∀ v, discW v ≠ b) → (∀ v, discR v ≠ b) → decodeFrame p (b :: rest) = .error .unknownCode) ∧
    ∀ b rest,
      (b ∈ [0x03#8, 0x04#8] → rest.length ≠ 0 → decodeFrame p (b :: rest) = .error .badLength) ∧
      (b ∈ [0x05#8, 0x06#8, 0x14#8] → rest.length ≠ 1 → decodeFrame p (b :: rest) = .error .badLength) ∧
      (b ∈ [0x15#8, 0x24#8, 0x37#8] → rest.length ≠ 2 → decodeFrame p (b :: rest) = .error .badLength) ∧
      (b = 0x13#8 → rest.length ≠ p.extArgsP1 → decodeFrame p (b :: rest) = .error .badLength) ∧
      (b = 0x23#8 → rest.length ≠ p.extArgsP2 → decodeFrame p (b :: rest) = .error .badLength) ∧
      (b ∈ [0x29#8, 0x39#8] → rest.length < 1 → decodeFrame p (b :: rest) = .error .badLength)

/-- From R77, R78: on every platform every admitted request, with every operand at every value its width admits, survives
being spelled and decoded. The shape of the raw record is the model's choice (log 15). -/
def Obligations.RequestDecodesToItself : Prop :=
  ∀ (p : Platform) (i : Instr), wellFormed p i = true → decode p (encode p i) = .ok i

/-- From R77, R79: a raw record that the interface admits is the spelling of the request it decodes to, which is well
formed; so every record has one meaning. The shape of the raw record is the model's choice (log 15). -/
def Obligations.AdmittedRequestIsItsEncoding : Prop :=
  ∀ (p : Platform) (r : RawRequest) (i : Instr), decode p r = .ok i → wellFormed p i = true ∧ encode p i = r

/-- From R79, R78: the refusals by name, on every platform. A label outside R77 is `unknown_op`; a discriminant outside its
direction's table, a read code sent as a write among them, is `unknown_code`; a command or a control request with the
wrong number of fields is `bad_fields`; any operand too wide for its field, every operand of every request among them, is
`operand_range`, a size above 0xFFFF, split into the two fields of R68 and R69, among them; the WORD code 3 is
`reserved_word`. The model's choice, log 15: the shape of the raw record; which reason
is answered where two apply (`bad_fields` before `operand_range`, and that before `reserved_word`); and `bad_fields` for a
write or a read with no DT at all, for a wrong number of operand fields and for a control request with a command. -/
def Obligations.IllFormedRequestsAreRefused : Prop :=
  ∀ pl : Platform,
  (∀ r : RawRequest, r.op ∉ [0x10, 0x11, 0x20, 0x21, 0x22, 0x23, 0x30, 0x31] → decode pl r = .error .unknownOp) ∧
  (∀ dt fields operands, (∀ v, (discW v).toNat ≠ dt) →
    decode pl ⟨0x10, dt :: fields, operands⟩ = .error .unknownCode) ∧
  (∀ dt fields operands, (∀ v, (discR v).toNat ≠ dt) →
    decode pl ⟨0x11, dt :: fields, operands⟩ = .error .unknownCode) ∧
  (∀ v fields operands, fields.length ≠
      (match v with
        | .dcsShortP0 | .dcsLongWrite | .genericLongWrite => 1
        | .dcsShortP1 | .setMaximumReturnPacketSize => 2
        | .genericShortP0 | .genericShortP1 | .genericShortP2 => 0) ∨
      operands.length ≠ (match v with | .dcsLongWrite | .genericLongWrite => 2 | _ => 0) →
    decode pl ⟨0x10, (discW v).toNat :: fields, operands⟩ = .error .badFields) ∧
  (∀ v fields operands, fields.length ≠
      (match v with
        | .dcsShort | .genericShortP1 => 1
        | .genericShortP0 => 0
        | .genericShortP2 => 2) ∨ operands.length ≠ 2 →
    decode pl ⟨0x11, (discR v).toNat :: fields, operands⟩ = .error .badFields) ∧
  (∀ op operands, op ∈ [0x10, 0x11] → decode pl ⟨op, [], operands⟩ = .error .badFields) ∧
  (∀ op count cmd operands,
    (op, count) ∈ [(0x20, 4), (0x21, 3), (0x22, 1), (0x23, 2), (0x30, 12), (0x31, 0)] →
    cmd ≠ [] ∨ operands.length ≠ count → decode pl ⟨op, cmd, operands⟩ = .error .badFields) ∧
  (∀ a, 2 ^ 8 ≤ a → decode pl ⟨0x10, [0x05, a], []⟩ = .error .operandRange) ∧
  (∀ a d, 2 ^ 8 ≤ a ∨ 2 ^ 8 ≤ d → decode pl ⟨0x10, [0x15, a, d], []⟩ = .error .operandRange) ∧
  (∀ first second, 2 ^ 8 ≤ first ∨ 2 ^ 8 ≤ second →
    decode pl ⟨0x10, [0x37, first, second], []⟩ = .error .operandRange) ∧
  (∀ size, 2 ^ 16 ≤ size →
    decode pl ⟨0x10, 0x37 :: sizeFields pl.mrpsByteOrder size, []⟩ = .error .operandRange) ∧
  (∀ dt a dAddr dLen, dt ∈ [0x39, 0x29] → 2 ^ 8 ≤ a ∨ 2 ^ pl.addrBits ≤ dAddr →
    decode pl ⟨0x10, [dt, a], [dAddr, dLen]⟩ = .error .operandRange) ∧
  (∀ bAddr n, 2 ^ pl.addrBits ≤ bAddr → decode pl ⟨0x11, [0x04], [bAddr, n]⟩ = .error .operandRange) ∧
  (∀ dt a bAddr n, dt ∈ [0x06, 0x14] → 2 ^ 8 ≤ a ∨ 2 ^ pl.addrBits ≤ bAddr →
    decode pl ⟨0x11, [dt, a], [bAddr, n]⟩ = .error .operandRange) ∧
  (∀ a0 a1 bAddr n, 2 ^ 8 ≤ a0 ∨ 2 ^ 8 ≤ a1 ∨ 2 ^ pl.addrBits ≤ bAddr →
    decode pl ⟨0x11, [0x24, a0, a1], [bAddr, n]⟩ = .error .operandRange) ∧
  (∀ i p pf word, 2 ^ pl.addrBits ≤ p ∨ 2 ^ 3 ≤ pf ∨ 2 ^ 2 ≤ word →
    decode pl ⟨0x20, [], [i, p, pf, word]⟩ = .error .operandRange) ∧
  (∀ i p word, 2 ^ pl.addrBits ≤ p ∨ 2 ^ 2 ≤ word → decode pl ⟨0x21, [], [i, p, word]⟩ = .error .operandRange) ∧
  (∀ i width, 2 ^ pl.pitchBits ≤ width → decode pl ⟨0x23, [], [i, width]⟩ = .error .operandRange) ∧
  (∀ numbers flags : List Nat, numbers.length = 8 → flags.length = 4 →
    (∃ v ∈ numbers, 2 ^ pl.cfgBits ≤ v) ∨ (∃ v ∈ flags, 2 ≤ v) →
    decode pl ⟨0x30, [], numbers ++ flags⟩ = .error .operandRange) ∧
  (∀ i p pf, p < 2 ^ pl.addrBits → pf < 2 ^ 3 → decode pl ⟨0x20, [], [i, p, pf, 3]⟩ = .error .reservedWord) ∧
  ∀ i p, p < 2 ^ pl.addrBits → decode pl ⟨0x21, [], [i, p, 3]⟩ = .error .reservedWord

/-- From R77, R69 and the vectors of 95_test_vectors.md: a few records, written out, decode to their requests on every
platform of the default widths, a size in either byte order. The shape of the raw record is the model's choice (log 15). -/
def Obligations.WrittenOutRecordsDecode : Prop :=
  ∀ p : Platform, p.addrBits = 32 → p.pitchBits = 32 →
    decode p ⟨0x10, [0x05, 0x11], []⟩ = .ok (.writeDcsShortP0 0x11#8) ∧
    decode p ⟨0x10, [0x39, 0x2A], [0x8000, 4]⟩ = .ok (.writeDcsLongWrite 0x2A#8 0x8000 4) ∧
    decode p ⟨0x11, [0x24, 0x01, 0x02], [0x9000, 1]⟩ = .ok (.readGenericShortP2 0x01#8 0x02#8 0x9000 1) ∧
    decode p ⟨0x20, [], [0, 0x10000, 2, 1]⟩ = .ok (.layerEnable 0 0x10000 .rgb565 1#2) ∧
    decode p ⟨0x23, [], [0, 8]⟩ = .ok (.layerResizeBufferPitch 0 8) ∧
    decode p ⟨0x31, [], []⟩ = .ok .ctrlClock ∧
    (p.mrpsByteOrder = .LE → decode p ⟨0x10, [0x37, 0x01, 0x00], []⟩ = .ok (.writeSetMaximumReturnPacketSize 1#16)) ∧
    (p.mrpsByteOrder = .BE → decode p ⟨0x10, [0x37, 0x01, 0x00], []⟩ = .ok (.writeSetMaximumReturnPacketSize 0x100#16))

/-! ### Reset -/

/-- R42: every piece of the block's state after reset, on every platform and for every number of layers. -/
def Obligations.ResetValues : Prop :=
  ∀ (p : Platform) (extra : Nat),
    (State.resetOn p extra).cfg = none ∧ (State.resetOn p extra).txn = none ∧ (State.resetOn p extra).wire = [] ∧
    (State.resetOn p extra).faults = [] ∧ (State.resetOn p extra).refused = false ∧
    (State.resetOn p extra).layers.length = extra + 1 ∧
    ∀ l ∈ (State.resetOn p extra).layers, l.mode = .disabled ∧ l.pf = none ∧ l.word = none ∧ l.cfba = none ∧
      l.sfba = none ∧ l.pitch = none ∧ l.swp = false

/-- From R162: after reset nothing is owned, so the host may load from and store to every byte that exists. -/
def Obligations.ResetOwnsNothing : Prop :=
  ∀ (p : Platform) (extra : Nat),
    (∀ x, owned (State.resetOn p extra) x = false) ∧
    (∀ a n, BytesExist p a n → ∃ t, hostLoad a n (State.resetOn p extra) = .next t) ∧
    ∀ a bs, BytesExist p a bs.length → ∃ t, hostStore a bs (State.resetOn p extra) = .next t

/-- From R45 and R162: the state after reset meets the invariant, on every platform. -/
def Obligations.ResetMeetsInvariant : Prop :=
  ∀ (p : Platform) (extra : Nat), Inv (State.resetOn p extra)

/-! ### DSI requests -/

/-- From R85, R87, R88, R90, R94: with the encoder idle, each short write puts its frame in flight and changes nothing
else. -/
def Obligations.ShortWriteStartsItsTransaction : Prop :=
  ∀ s : State, s.txn = none →
    (∀ a, exec (.writeDcsShortP0 a) s = .next { s with txn := some (.write [0x05#8, a]) }) ∧
    (∀ a d, exec (.writeDcsShortP1 a d) s = .next { s with txn := some (.write [0x15#8, a, d]) }) ∧
    exec .writeGenericShortP0 s = .next { s with txn := some (.write [0x03#8]) } ∧
    ∀ size : BitVec 16, exec (.writeSetMaximumReturnPacketSize size) s =
      .next { s with txn := some (.write
        (match s.platform.mrpsByteOrder with
          | .LE => [0x37#8, BitVec.ofNat 8 (size.toNat % 256), BitVec.ofNat 8 (size.toNat / 256)]
          | .BE => [0x37#8, BitVec.ofNat 8 (size.toNat / 256), BitVec.ofNat 8 (size.toNat % 256)])) }

/-- From R85, R89, R93, R97: with the encoder idle, a long write within MAX_LONG_DATA of a slice that exists and may be
read puts its frame in flight; the frame carries the slice's bytes as they are at issue, in address order; nothing else
changes. -/
def Obligations.LongWriteStartsItsTransaction : Prop :=
  ∀ (s : State) (a : Byte) (dAddr : Nat) (dLen : Nat), s.txn = none →
    (∀ m, s.platform.maxLongData = some m → dLen ≤ m) →
    (s.platform.hostReadOwnedAllowed = true ∨ FreeOfOwned s dAddr dLen) →
    BytesExist s.platform dAddr dLen →
    ∃ data : List Byte, data.length = dLen ∧
      (∀ k, k < dLen → data[k]? = some (memByte s.mem (dAddr + k))) ∧
      exec (.writeDcsLongWrite a dAddr dLen) s = .next { s with txn := some (.write ([0x39#8, a] ++ data)) } ∧
      exec (.writeGenericLongWrite a dAddr dLen) s = .next { s with txn := some (.write ([0x29#8, a] ++ data)) }

/-- From R70, R85, R91, R92: with the encoder idle, GenericShortP1 and GenericShortP2 put in flight their discriminant
and EXT_ARGS_LEN drawn bytes, and nothing else of the block changes; and whatever bytes the outside supplies, those are
the bytes sent, in order. The tape of draws is the model's (log 8). -/
def Obligations.ExternalWriteSendsWhatIsDrawn : Prop :=
  ∀ s : State, s.txn = none →
    (∃ x t, x.length = s.platform.extArgsP1 ∧ exec .writeGenericShortP1 s = .next t ∧
      t = { s with txn := some (.write ([0x13#8] ++ x)), tape := t.tape, drawn := t.drawn }) ∧
    (∃ x t, x.length = s.platform.extArgsP2 ∧ exec .writeGenericShortP2 s = .next t ∧
      t = { s with txn := some (.write ([0x23#8] ++ x)), tape := t.tape, drawn := t.drawn }) ∧
    (∀ x rest, s.tape = x ++ rest → x.length = s.platform.extArgsP1 →
      exec .writeGenericShortP1 s = .next { s with txn := some (.write ([0x13#8] ++ x)), tape := rest }) ∧
    ∀ x rest, s.tape = x ++ rest → x.length = s.platform.extArgsP2 →
      exec .writeGenericShortP2 s = .next { s with txn := some (.write ([0x23#8] ++ x)), tape := rest }

/-- From R101, R104 to R107: with the encoder idle, a read of an admitted count into a buffer that exists and is not
owned puts its frame in flight with the buffer, and changes nothing else. -/
def Obligations.ReadStartsItsTransaction : Prop :=
  ∀ (s : State) (bAddr : Nat) (n : Nat), s.txn = none → BytesExist s.platform bAddr n →
    FreeOfOwned s bAddr n →
    (∀ a, readLenOK s.platform .dcsShort n = true →
      exec (.readDcsShort a bAddr n) s = .next { s with txn := some (.read [0x06#8, a] n bAddr) }) ∧
    (readLenOK s.platform .genericShortP0 n = true →
      exec (.readGenericShortP0 bAddr n) s = .next { s with txn := some (.read [0x04#8] n bAddr) }) ∧
    (∀ a, readLenOK s.platform .genericShortP1 n = true →
      exec (.readGenericShortP1 a bAddr n) s = .next { s with txn := some (.read [0x14#8, a] n bAddr) }) ∧
    ∀ a0 a1, readLenOK s.platform .genericShortP2 n = true →
      exec (.readGenericShortP2 a0 a1 bAddr n) s = .next { s with txn := some (.read [0x24#8, a0, a1] n bAddr) }

/-- From R85, R100, R101, R148: while a transaction is in flight every DSI request holds (nothing changes), and the
host's own turn leaves its queue as it is. That a hold is a next state with nothing changed is the model's choice (log
11). -/
def Obligations.BusyEncoderHoldsRequests : Prop :=
  ∀ s : State, s.txn ≠ none →
    (∀ i, requestKindOfInstr i = .write ∨ requestKindOfInstr i = .read → exec i s = .next s) ∧
    takeTurn .host s = .next s

/-- From R85, R89, R150: where a long write faults: above MAX_LONG_DATA F0F; else over an owned byte, where such reads
are not allowed, F06; else over bytes that do not exist F04. The record keeps the label and the operands, and nothing
else changes. The layout of the record's operands is the model's choice (log 14). -/
def Obligations.LongWriteFaultsInOrder : Prop :=
  ∀ (s : State) (a : Byte) (dAddr : Nat) (dLen : Nat), s.txn = none →
    ∀ i dt, (i = Instr.writeDcsLongWrite a dAddr dLen ∧ dt = 0x39 ∨
        i = Instr.writeGenericLongWrite a dAddr dLen ∧ dt = 0x29) →
      ((∃ m, s.platform.maxLongData = some m ∧ m < dLen) →
        exec i s = .fault (.longDataTooLong
          (addFault ⟨.longDataTooLong, .request .write, [dt, a.toNat, dAddr, dLen]⟩ s))) ∧
      ((∀ m, s.platform.maxLongData = some m → dLen ≤ m) → s.platform.hostReadOwnedAllowed = false →
        ¬ FreeOfOwned s dAddr dLen →
        exec i s = .fault (.ownedBufferAccess
          (addFault ⟨.ownedBufferAccess, .request .write, [dt, a.toNat, dAddr, dLen]⟩ s))) ∧
      ((∀ m, s.platform.maxLongData = some m → dLen ≤ m) →
        (s.platform.hostReadOwnedAllowed = true ∨ FreeOfOwned s dAddr dLen) →
        ¬ BytesExist s.platform dAddr dLen →
        exec i s = .fault (.footprintInvalid
          (addFault ⟨.footprintInvalid, .request .write, [dt, a.toNat, dAddr, dLen]⟩ s)))

/-- From R101, R109, R150: where a read faults: a count the variant does not admit F09; else a buffer that does not
exist F04; else a buffer over an owned byte F06. The layout of the record's operands is the model's choice (log 14). -/
def Obligations.ReadFaultsInOrder : Prop :=
  ∀ (s : State) (a0 a1 : Byte) (bAddr : Nat) (n : Nat), s.txn = none →
    ∀ i v cmd, (i = Instr.readDcsShort a0 bAddr n ∧ v = ReadVariant.dcsShort ∧ cmd = [0x06, a0.toNat] ∨
        i = Instr.readGenericShortP0 bAddr n ∧ v = ReadVariant.genericShortP0 ∧ cmd = [0x04] ∨
        i = Instr.readGenericShortP1 a0 bAddr n ∧ v = ReadVariant.genericShortP1 ∧ cmd = [0x14, a0.toNat] ∨
        i = Instr.readGenericShortP2 a0 a1 bAddr n ∧ v = ReadVariant.genericShortP2 ∧
          cmd = [0x24, a0.toNat, a1.toNat]) →
      (readLenOK s.platform v n = false →
        exec i s = .fault (.readLen (addFault ⟨.readLen, .request .read, cmd ++ [bAddr, n]⟩ s))) ∧
      (readLenOK s.platform v n = true → ¬ BytesExist s.platform bAddr n →
        exec i s = .fault (.footprintInvalid
          (addFault ⟨.footprintInvalid, .request .read, cmd ++ [bAddr, n]⟩ s))) ∧
      (readLenOK s.platform v n = true → BytesExist s.platform bAddr n → ¬ FreeOfOwned s bAddr n →
        exec i s = .fault (.ownedBufferAccess
          (addFault ⟨.ownedBufferAccess, .request .read, cmd ++ [bAddr, n]⟩ s)))

/-- From R86: with a write in flight, Ok logs the whole frame and returns Ok; Err(e) logs some prefix and returns
Err(e), and every prefix can be the one logged; the encoder is idle again and nothing else changes. The list `results`,
where the outcome is kept, is the model's (log 24). -/
def Obligations.WriteCompletion : Prop :=
  ∀ (s : State) (frame : List Byte), s.txn = some (.write frame) →
    takeTurn .completeOk s = .next { s with
      txn := none, wire := s.wire ++ [⟨.W, frame, true⟩], results := s.results ++ [.write .ok] } ∧
    (∀ e k, ∃ j, j ≤ frame.length ∧ takeTurn (.completeErr e k) s = .next { s with
      txn := none, wire := s.wire ++ [⟨.W, frame.take j, false⟩], results := s.results ++ [.write (.err e)] }) ∧
    ∀ e j, j ≤ frame.length → ∃ k, takeTurn (.completeErr e k) s = .next { s with
      txn := none, wire := s.wire ++ [⟨.W, frame.take j, false⟩], results := s.results ++ [.write (.err e)] }

/-- From R102, R103, R110, R111: with a read in flight whose buffer exists, either completion fills exactly the buffer's
n bytes with drawn bytes (any bytes the outside supplies), logs the command frame or a prefix of it and not the
response, returns the outcome, leaves every other byte as it was, and changes no register of the layers. The list
`results` and the tape of draws are the model's (log 8, 24). -/
def Obligations.ReadCompletion : Prop :=
  ∀ (s : State) (frame : List Byte) (n : Nat) (bAddr : Nat), s.txn = some (.read frame n bAddr) →
    s.mem.wf = true → BytesExist s.platform bAddr n →
    ∀ turn r bytes ok, (turn = Turn.completeOk ∧ r = TxResult.ok ∧ bytes = frame ∧ ok = true ∨
        ∃ e k, turn = Turn.completeErr e k ∧ r = TxResult.err e ∧ bytes = frame.take k ∧ ok = false) →
      ∃ t resp, takeTurn turn s = .next t ∧ resp.length = n ∧
        (∀ k, k < n → resp[k]? = some (memByte t.mem (bAddr + k))) ∧
        (∀ x, x < bAddr ∨ bAddr + n ≤ x → memByte t.mem x = memByte s.mem x) ∧
        (∀ x rest, s.tape = x ++ rest → x.length = n → resp = x) ∧
        t = { s with txn := none, wire := s.wire ++ [⟨.R, bytes, ok⟩], results := s.results ++ [.read r],
                     mem := t.mem, tape := t.tape, drawn := t.drawn }

/-- From R141: while every layer is Disabled, a DSI request that goes ahead does so in just the same way under any other
configuration; and `init` and `clock` neither write the encoder's state nor read it: with any other transaction in flight
and any other wire log they do just the same, and leave those as they are. -/
def Obligations.DsiDoesNotDependOnInit : Prop :=
  (∀ (i : Instr) (s t : State) (cfg : Option CtrlConfig),
    requestKindOfInstr i = .write ∨ requestKindOfInstr i = .read → (∀ l ∈ s.layers, l.mode = .disabled) →
    exec i s = .next t → exec i { s with cfg := cfg } = .next { t with cfg := cfg }) ∧
  ∀ (i : Instr) (s t : State), requestKindOfInstr i = .init ∨ requestKindOfInstr i = .clock →
    exec i s = .next t → t.txn = s.txn ∧ t.wire = s.wire ∧
      ∀ txn wire, exec i { s with txn := txn, wire := wire } = .next { t with txn := txn, wire := wire }

/-! ### Layer requests -/

/-- From R114: a layer request whose index is at or above NUM_LAYERS raises F0E before any other check, and does nothing
else. (The WORD code 3 is no request: R79.) The layout of the record's operands is the model's choice (log 14). -/
def Obligations.LayerIndexCheckedFirst : Prop :=
  ∀ (s : State) (i : Nat), s.layers.length ≤ i →
    (∀ p pf word, word ≠ 3#2 → exec (.layerEnable i p pf word) s = .fault (.layerIndex
      (addFault ⟨.layerIndex, .request .enable, [i, p, (pixelFormatCode pf).toNat, word.toNat]⟩ s))) ∧
    (∀ p word, word ≠ 3#2 → exec (.layerSwapFramebuffer i p word) s = .fault (.layerIndex
      (addFault ⟨.layerIndex, .request .swapFramebuffer, [i, p, word.toNat]⟩ s))) ∧
    exec (.layerIsSwapPending i) s = .fault (.layerIndex
      (addFault ⟨.layerIndex, .request .isSwapPending, [i]⟩ s)) ∧
    ∀ width, exec (.layerResizeBufferPitch i width) s = .fault (.layerIndex
      (addFault ⟨.layerIndex, .request .resizeBufferPitch, [i, width]⟩ s))

/-- From R118: `enable` on a Disabled layer of an initialised controller, with an aligned pointer to a buffer that
exists, writes the layer's seven registers as the rule lists them and nothing else. The pitch is the active width,
held whole (log 22). -/
def Obligations.EnableWritesItsLayer : Prop :=
  ∀ (s : State) (i : Nat) (p : Nat) (pf : PixelFormat) (word : BitVec 2) (w : PixelWord) (l : LayerRegs)
    (c : CtrlConfig), pixelWordOf word = some w → s.layers[i]? = some l → s.cfg = some c → l.mode = .disabled →
    p % fbAlign s.platform w = 0 → BytesExist s.platform p (c.aw * c.ah * bpp pf) →
    exec (.layerEnable i p pf word) s = .next
      { s with
        layers := s.layers.set i
          { mode := .enabled, pf := some pf, word := some w, cfba := some p, sfba := none, swp := false,
            pitch := some c.aw } }

/-- From R118, R150: where `enable` faults on a layer that exists: F0A before `init`; else F02 on an Enabled layer; else
F05 on a misaligned pointer; else F04 on a buffer that does not exist. The layout of the record's operands is the model's
choice (log 14). -/
def Obligations.EnableFaultsInOrder : Prop :=
  ∀ (s : State) (i : Nat) (p : Nat) (pf : PixelFormat) (word : BitVec 2) (w : PixelWord) (l : LayerRegs)
    (rec : FaultCode → FaultRecord), pixelWordOf word = some w → s.layers[i]? = some l →
    (∀ code, rec code = ⟨code, .request .enable, [i, p, (pixelFormatCode pf).toNat, word.toNat]⟩) →
    (s.cfg = none →
      exec (.layerEnable i p pf word) s = .fault (.notInitialised (addFault (rec .notInitialised) s))) ∧
    ∀ c, s.cfg = some c →
      (l.mode = .enabled →
        exec (.layerEnable i p pf word) s = .fault (.enableWhileEnabled (addFault (rec .enableWhileEnabled) s))) ∧
      (l.mode = .disabled → p % fbAlign s.platform w ≠ 0 →
        exec (.layerEnable i p pf word) s = .fault (.bufferMisaligned (addFault (rec .bufferMisaligned) s))) ∧
      (l.mode = .disabled → p % fbAlign s.platform w = 0 →
        ¬ BytesExist s.platform p (c.aw * c.ah * bpp pf) →
        exec (.layerEnable i p pf word) s = .fault (.footprintInvalid (addFault (rec .footprintInvalid) s)))

/-- From R117 point 1, R116, R167: the bytes owned after `enable` are those owned before and the new buffer's footprint,
active width times active height times bytes per pixel from the pointer on. -/
def Obligations.EnableTakesOwnership : Prop :=
  ∀ (s t : State) (i : Nat) (p : Nat) (pf : PixelFormat) (word : BitVec 2) (c : CtrlConfig), s.cfg = some c →
    exec (.layerEnable i p pf word) s = .next t →
    ∀ x, owned t x = true ↔
      owned s x = true ∨ p ≤ x ∧ x < p + c.aw * c.ah * bpp pf

/-- From R119: `swap_framebuffer` on an Enabled layer with no swap pending and an aligned pointer to a buffer that
exists writes the shadow pointer, the word width and SwapPending of that layer, and nothing else: the displayed buffer
stays. -/
def Obligations.SwapWritesTheShadow : Prop :=
  ∀ (s : State) (i : Nat) (p : Nat) (word : BitVec 2) (w : PixelWord) (l : LayerRegs) (c : CtrlConfig)
    (pf : PixelFormat) (pitch : Nat), pixelWordOf word = some w → s.layers[i]? = some l → l.mode = .enabled →
    l.swp = false → s.cfg = some c → l.pf = some pf → l.pitch = some pitch →
    p % fbAlign s.platform w = 0 → BytesExist s.platform p (pitch * c.ah * bpp pf) →
    exec (.layerSwapFramebuffer i p word) s = .next
      { s with layers := s.layers.set i { l with sfba := some p, word := some w, swp := true } }

/-- From R119, R150: where `swap_framebuffer` faults on a layer that exists: F01 on a Disabled layer; else F03 while a
swap is pending; else F05 on a misaligned pointer; else F04 on a buffer that does not exist. The layout of the record's
operands is the model's choice (log 14). -/
def Obligations.SwapFaultsInOrder : Prop :=
  ∀ (s : State) (i : Nat) (p : Nat) (word : BitVec 2) (w : PixelWord) (l : LayerRegs)
    (rec : FaultCode → FaultRecord), pixelWordOf word = some w → s.layers[i]? = some l →
    (∀ code, rec code = ⟨code, .request .swapFramebuffer, [i, p, word.toNat]⟩) →
    (l.mode = .disabled →
      exec (.layerSwapFramebuffer i p word) s = .fault (.swapBeforeEnable (addFault (rec .swapBeforeEnable) s))) ∧
    (l.mode = .enabled → l.swp = true →
      exec (.layerSwapFramebuffer i p word) s = .fault (.swapWhilePending (addFault (rec .swapWhilePending) s))) ∧
    (l.mode = .enabled → l.swp = false → p % fbAlign s.platform w ≠ 0 →
      exec (.layerSwapFramebuffer i p word) s = .fault (.bufferMisaligned (addFault (rec .bufferMisaligned) s))) ∧
    ∀ c pf pitch, l.mode = .enabled → l.swp = false → p % fbAlign s.platform w = 0 → s.cfg = some c →
      l.pf = some pf → l.pitch = some pitch →
      ¬ BytesExist s.platform p (pitch * c.ah * bpp pf) →
      exec (.layerSwapFramebuffer i p word) s = .fault (.footprintInvalid (addFault (rec .footprintInvalid) s))

/-- From R117, R124, R166, R167: after `swap_framebuffer` the new buffer is owned at once and everything owned before
still is; and the displayed pointer is unchanged. -/
def Obligations.SwapOwnsBothBuffers : Prop :=
  ∀ (s t : State) (i : Nat) (p : Nat) (word : BitVec 2) (l : LayerRegs) (c : CtrlConfig) (pf : PixelFormat)
    (pitch : Nat), s.layers[i]? = some l → s.cfg = some c → l.pf = some pf → l.pitch = some pitch →
    exec (.layerSwapFramebuffer i p word) s = .next t →
    (∀ x, owned t x = true ↔
      owned s x = true ∨ p ≤ x ∧ x < p + pitch * c.ah * bpp pf) ∧
    ∃ l', t.layers[i]? = some l' ∧ l'.cfba = l.cfba ∧ l'.sfba = some p

/-- From R120: `is_swap_pending` on a layer that exists, Disabled or not, returns the flag and writes no state of the
block; on any other it raises F0E. The list `results`, where the flag is kept, is the model's (log 24), and so is the
layout of the record's operands (log 14). -/
def Obligations.IsSwapPendingReturnsTheFlag : Prop :=
  ∀ (s : State) (i : Nat),
    (∀ l, s.layers[i]? = some l →
      exec (.layerIsSwapPending i) s = .next { s with results := s.results ++ [.swapPending l.swp] }) ∧
    (s.layers.length ≤ i → exec (.layerIsSwapPending i) s = .fault (.layerIndex
      (addFault ⟨.layerIndex, .request .isSwapPending, [i]⟩ s)))

/-- From R121, R168: `resize_buffer_pitch` on an Enabled layer, to a pitch at or above the active width with which
every buffer of the layer exists, changes the pitch at once, and nothing else. -/
def Obligations.ResizePitchIsImmediate : Prop :=
  ∀ (s : State) (i : Nat) (width : Nat) (l : LayerRegs) (c : CtrlConfig) (pf : PixelFormat) (shown : Nat),
    s.layers[i]? = some l → l.mode = .enabled → s.cfg = some c → l.pf = some pf → l.cfba = some shown →
    c.aw ≤ width → BytesExist s.platform shown (width * c.ah * bpp pf) →
    (l.swp = true → ∃ pending, l.sfba = some pending ∧
      BytesExist s.platform pending (width * c.ah * bpp pf)) →
    exec (.layerResizeBufferPitch i width) s = .next
      { s with layers := s.layers.set i { l with pitch := some width } }

/-- From R121, R150: where `resize_buffer_pitch` faults on a layer that exists: F07 on a Disabled layer; else F08 below
the active width; else F04 where the displayed buffer, or the pending one while a swap is pending, would not exist. The
layout of the record's operands is the model's choice (log 14). -/
def Obligations.ResizePitchFaultsInOrder : Prop :=
  ∀ (s : State) (i : Nat) (width : Nat) (l : LayerRegs) (rec : FaultCode → FaultRecord),
    s.layers[i]? = some l →
    (∀ code, rec code = ⟨code, .request .resizeBufferPitch, [i, width]⟩) →
    (l.mode = .disabled →
      exec (.layerResizeBufferPitch i width) s = .fault (.resizeBeforeEnable (addFault (rec .resizeBeforeEnable) s))) ∧
    ∀ c, l.mode = .enabled → s.cfg = some c →
      (width < c.aw →
        exec (.layerResizeBufferPitch i width) s = .fault (.pitchIllegal (addFault (rec .pitchIllegal) s))) ∧
      ∀ pf shown, l.pf = some pf → l.cfba = some shown → (l.swp = true → l.sfba ≠ none) →
        c.aw ≤ width →
        (¬ BytesExist s.platform shown (width * c.ah * bpp pf) ∨
          l.swp = true ∧ ∃ pending, l.sfba = some pending ∧
            ¬ BytesExist s.platform pending (width * c.ah * bpp pf)) →
        exec (.layerResizeBufferPitch i width) s = .fault (.footprintInvalid (addFault (rec .footprintInvalid) s))

/-- From R122: `resize_buffer_pitch` writes only the layer's pitch; the configuration, and so the output window, is the same
before and after. -/
def Obligations.ResizePitchWritesOnlyThePitch : Prop :=
  ∀ (s t : State) (i : Nat) (width : Nat), exec (.layerResizeBufferPitch i width) s = .next t →
    t.cfg = s.cfg ∧ ∃ l, s.layers[i]? = some l ∧
      t = { s with layers := s.layers.set i { l with pitch := some width } }

/-- From R44: a layer request changes no register of any other layer, nor the configuration, the encoder or memory. -/
def Obligations.LayersAreIndependent : Prop :=
  ∀ (ins : Instr) (i : Nat) (s t : State),
    ((∃ p pf word, ins = .layerEnable i p pf word) ∨ (∃ p word, ins = .layerSwapFramebuffer i p word) ∨
      ins = .layerIsSwapPending i ∨ ∃ width, ins = .layerResizeBufferPitch i width) →
    exec ins s = .next t →
    (∀ j, j ≠ i → t.layers[j]? = s.layers[j]?) ∧ t.cfg = s.cfg ∧ t.txn = s.txn ∧ t.wire = s.wire ∧ t.mem = s.mem ∧
      t.faults = s.faults ∧ t.refused = s.refused ∧ t.platform = s.platform

/-! ### Controller requests -/

/-- From R135, R136, R137: `init` with an active width and height of at least 1, while no layer is Enabled, replaces the
configuration whole, whatever it was, and changes nothing else. -/
def Obligations.InitReplacesTheConfiguration : Prop :=
  ∀ (s : State) (c : CtrlConfig), (∀ l ∈ s.layers, l.mode = .disabled) → 1 ≤ c.aw → 1 ≤ c.ah →
    exec (.ctrlInit c) s = .next { s with cfg := some c }

/-- From R135, R150, R173: where `init` faults: F0B while a layer is Enabled; else F0C with no width or no height. That the
record lists the configuration as twelve numbers, in the order of R81, is the model's choice (log 14, 15). -/
def Obligations.InitFaultsInOrder : Prop :=
  ∀ (s : State) (c : CtrlConfig) (rec : FaultCode → FaultRecord),
    (∀ code, rec code = ⟨code, .request .init, [c.aw, c.ah, c.hbp, c.hfp, c.vbp,
      c.vfp, c.hsw, c.vsw, c.hsyncPol.toNat, c.vsyncPol.toNat, c.dePol.toNat, c.pclkPol.toNat]⟩) →
    ((∃ l ∈ s.layers, l.mode = .enabled) →
      exec (.ctrlInit c) s = .fault (.initWhileEnabled (addFault (rec .initWhileEnabled) s))) ∧
    ((∀ l ∈ s.layers, l.mode = .disabled) → c.aw = 0 ∨ c.ah = 0 →
      exec (.ctrlInit c) s = .fault (.configIllegal (addFault (rec .configIllegal) s)))

/-- From R138, R139: `clock` returns the pixel clock of the configuration, a value that depends on the configuration
alone, and writes no state; before the first `init` it raises F0A. The list `results`, where the value is kept, is the
model's (log 24), and so is the layout of the record's operands, of which there are none here (log 14). -/
def Obligations.ClockReportsTheConfiguration : Prop :=
  ∃ hz : CtrlConfig → Nat, ∀ s : State,
    (∀ c, s.cfg = some c → exec .ctrlClock s = .next { s with results := s.results ++ [.clock (hz c)] }) ∧
    (s.cfg = none →
      exec .ctrlClock s = .fault (.notInitialised (addFault ⟨.notInitialised, .request .clock, []⟩ s)))

/-! ### Hardware steps and ownership -/

/-- R126 (and R127): once the controller is initialised, a vertical blank takes, in one step, every Enabled layer with a swap
pending to its pending buffer, with no pending buffer and SwapPending clear; nothing else changes. -/
def Obligations.VerticalBlankReloads : Prop :=
  ∀ s : State, s.cfg ≠ none →
    ∃ t, takeTurn .vblank s = .next t ∧ t = { s with layers := t.layers } ∧ t.layers.length = s.layers.length ∧
      ∀ (i : Nat) (l : LayerRegs), s.layers[i]? = some l →
        (l.mode = .enabled → l.swp = true →
          t.layers[i]? = some { l with cfba := l.sfba, sfba := none, swp := false }) ∧
        (l.mode = .disabled ∨ l.swp = false → t.layers[i]? = some l)

/-- From R128: before the first `init` the timing generator has no step, and no layer can be enabled. That the turn then
passes, changing nothing, is the model's choice (log 9). -/
def Obligations.NoVerticalBlankBeforeInit : Prop :=
  ∀ s : State, s.cfg = none → takeTurn .vblank s = .next s ∧
    ∀ i p pf word t, exec (.layerEnable i p pf word) s ≠ .next t

/-- From R129, R131, R117 point 3: after a vertical blank the owned bytes are those of the displayed buffers; every one
of them was owned before, and the byte of a replaced buffer that no layer then displays is free. -/
def Obligations.VerticalBlankReleases : Prop :=
  ∀ s t : State, LayersOK s → s.cfg ≠ none → takeTurn .vblank s = .next t →
    (∀ x, owned t x = true ↔ ∃ l ∈ t.layers, l.mode = .enabled ∧
      ∃ foot, footprint t.cfg l l.cfba = some foot ∧ rangeHas foot x = true) ∧
    (∀ x, owned t x = true → owned s x = true) ∧ ∀ l ∈ t.layers, l.swp = false

/-- From R123, R53, R58 point 4: every byte the scan-out engine may read is in the owned set, and reading it changes
nothing. Which reads the engine may make is the model's reading (log 23). -/
def Obligations.ScanOutReadsOnlyOwnedBytes : Prop :=
  ∀ (s t : State) (i : Nat) (a : Nat) (n : Nat),
    (scanEnabled i a n s = true → ∀ x, a ≤ x → x < a + n → owned s x = true) ∧
    (takeTurn (.scan i a n) s = .next t → t = s)

/-- From R51, R50: a host store of bytes that exist and that no layer owns writes those bytes, in address order, and
changes nothing else; over an owned byte it raises F06; else over bytes that do not exist F04. -/
def Obligations.HostStoreRespectsOwnership : Prop :=
  ∀ (s : State) (a : Nat) (bs : List Byte), s.mem.wf = true →
    (FreeOfOwned s a bs.length → BytesExist s.platform a bs.length →
      ∃ t, hostStore a bs s = .next t ∧ t = { s with mem := t.mem } ∧
        (∀ k, k < bs.length → bs[k]? = some (memByte t.mem (a + k))) ∧
        ∀ x, x < a ∨ a + bs.length ≤ x → memByte t.mem x = memByte s.mem x) ∧
    (¬ FreeOfOwned s a bs.length →
      hostStore a bs s = .fault (.ownedBufferAccess
        (addFault ⟨.ownedBufferAccess, .hostStore, [a, bs.length]⟩ s))) ∧
    (FreeOfOwned s a bs.length → ¬ BytesExist s.platform a bs.length →
      hostStore a bs s = .fault (.footprintInvalid
        (addFault ⟨.footprintInvalid, .hostStore, [a, bs.length]⟩ s)))

/-- From R51, R50: a host load returns the bytes, in address order, where they exist and reads of owned bytes are
allowed or none is owned; it raises F06 over an owned byte where they are not; else F04. The list `results`, where the
bytes are kept, is the model's (log 24). -/
def Obligations.HostLoadRespectsOwnership : Prop :=
  ∀ (s : State) (a : Nat) (n : Nat),
    (s.platform.hostReadOwnedAllowed = true ∨ FreeOfOwned s a n → BytesExist s.platform a n →
      ∃ bs : List Byte, bs.length = n ∧ (∀ k, k < n → bs[k]? = some (memByte s.mem (a + k))) ∧
        hostLoad a n s = .next { s with results := s.results ++ [.load bs] }) ∧
    (s.platform.hostReadOwnedAllowed = false → ¬ FreeOfOwned s a n →
      hostLoad a n s = .fault (.ownedBufferAccess (addFault ⟨.ownedBufferAccess, .hostLoad, [a, n]⟩ s))) ∧
    (s.platform.hostReadOwnedAllowed = true ∨ FreeOfOwned s a n → ¬ BytesExist s.platform a n →
      hostLoad a n s = .fault (.footprintInvalid (addFault ⟨.footprintInvalid, .hostLoad, [a, n]⟩ s)))

/-- From R151: a transport completion and a vertical blank touch disjoint state, so in either order they reach the same
state. That a turn with no step passes is the model's choice (log 9). -/
def Obligations.CompletionAndVerticalBlankCommute : Prop :=
  ∀ (s a b : State) (turn : Turn), (turn = .completeOk ∨ ∃ e k, turn = .completeErr e k) →
    takeTurn turn s = .next a → takeTurn .vblank s = .next b →
    ∃ t, takeTurn .vblank a = .next t ∧ takeTurn turn b = .next t

/-! ### The whole machine -/

/-- From R13, R22, R79: in a run that has not stopped, with the encoder idle and the host's turn next, the request at
the head of the host's queue is decoded and performed by exec, or refused by name with the run marked refused. The turn
and the request are used up, and nothing else happens around it. An opcode-table word that decodes, placed for the next
step, runs just so; `decodeTableWord` names what it runs where MRPS_BYTE_ORDER is LE, as at reset. The host's queue, the turns and the table word's request are the model's (log 9, 10, 16). -/
def Obligations.StepPerformsTheDecodedRequest : Prop :=
  (∀ (s : State) (r : RawRequest) (rest : List HostAction), running s = true → s.txn = none → nextTurn s = .host →
    s.hostQueue = .request r :: rest →
    (∀ i, decode s.platform r = .ok i → step s = exec i { afterTurn s with hostQueue := rest }) ∧
    ∀ reason, decode s.platform r = .error reason →
      step s = .refused (refusalOf reason { afterTurn s with hostQueue := rest, refused := true })) ∧
  ∀ (s : State) (nbits w : Nat) (i : Instr), running s = true → s.txn = none →
    (decode s.platform (tableRequest nbits w) = .ok i → step (s.withFetchWord nbits w) = exec i s) ∧
    (s.platform.mrpsByteOrder = .LE → decodeTableWord nbits w = some i → step (s.withFetchWord nbits w) = exec i s)

/-- From R145, R147, R36, R42: a request that faults leaves its record, with its label and operands, in the fault set, and
changes nothing else (or would have read a register that holds no value, and changes nothing); once the fault set holds
anything no agent has a step; and neither has one once a request has been refused. The layout of the operands, the fault
of a missing value and the answer `stopped` of a run that has stopped are the model's (log 13, 14, 17). -/
def Obligations.FaultsAreSticky : Prop :=
  (∀ (i : Instr) (s : State) (f : Fault), exec i s = .fault f →
    f = .noValue s ∨ ∃ code, f = faultOf code
      (addFault ⟨code, .request (requestKindOfInstr i), (encode s.platform i).cmd ++ (encode s.platform i).operands⟩ s)) ∧
  (∀ (r : FaultRecord) (s : State),
    r ∈ (addFault r s).faults ∧ (∀ q ∈ s.faults, q ∈ (addFault r s).faults) ∧
      addFault r s = { s with faults := (addFault r s).faults }) ∧
  (∀ s : State, s.faults ≠ [] → step s = .fault (.stopped s)) ∧
  ∀ s : State, s.faults = [] → s.refused = true → step s = .refused (.stopped s)

/-- R125: after `enable`, no step but a vertical blank writes a layer's displayed pointer, and no step but a vertical
blank clears SwapPending. -/
def Obligations.OnlyVerticalBlankMovesTheDisplayedBuffer : Prop :=
  ∀ (s t : State) (i : Nat) (l l' : LayerRegs), step s = .next t → s.layers[i]? = some l → t.layers[i]? = some l' →
    (l.mode = .enabled → l'.cfba ≠ l.cfba → nextTurn s = .vblank) ∧
    (l.mode = .enabled → l.swp = true → l'.swp = false → nextTurn s = .vblank)

/-- From R38, R120: SwapPending becomes set only in a host step that performs `swap_framebuffer` on that layer. -/
def Obligations.OnlySwapSetsSwapPending : Prop :=
  ∀ (s t : State) (i : Nat) (l l' : LayerRegs), step s = .next t → s.layers[i]? = some l → t.layers[i]? = some l' →
    l.swp = false → l'.swp = true →
    nextTurn s = .host ∧ ∃ r rest p word, s.hostQueue = .request r :: rest ∧
      decode s.platform r = .ok (.layerSwapFramebuffer i p word)

/-- From R132: no step disables a layer, and the displayed buffer of an Enabled layer stays the displayed one until a swap
replaces it. -/
def Obligations.EnabledLayersStayEnabled : Prop :=
  ∀ (s t : State) (i : Nat) (l : LayerRegs), step s = .next t → s.layers[i]? = some l → l.mode = .enabled →
    ∃ l', t.layers[i]? = some l' ∧ l'.mode = .enabled ∧ (l.swp = false → l'.cfba = l.cfba)

/-- R20: the configuration is written only by `init`. -/
def Obligations.OnlyInitWritesTheConfiguration : Prop :=
  ∀ s t : State, step s = .next t → t.cfg ≠ s.cfg →
    nextTurn s = .host ∧ ∃ r rest c, s.hostQueue = .request r :: rest ∧ decode s.platform r = .ok (.ctrlInit c) ∧
      t.cfg = some c

/-- From R9, R18: no step changes the parameters or the number of layers. -/
def Obligations.ParametersAreFixed : Prop :=
  ∀ s t : State, step s = .next t → t.platform = s.platform ∧ t.layers.length = s.layers.length

/-- From R25, R98, R100: the wire log only grows, by at most one entry a step, and only when the transport completes the
transaction in flight, which is then over. -/
def Obligations.WireLogGrowsOnlyAtCompletion : Prop :=
  ∀ s t : State, step s = .next t →
    t.wire = s.wire ∨
      (s.txn ≠ none ∧ t.txn = none ∧ (nextTurn s = .completeOk ∨ ∃ e k, nextTurn s = .completeErr e k) ∧
        ∃ w, t.wire = s.wire ++ [w])

/-- From R46, R43: a byte of memory changes only in a host store that covers it, or at the completion of a read whose
buffer covers it. -/
def Obligations.MemoryChangesOnlyByStoreOrResponse : Prop :=
  ∀ (s t : State) (x : Nat), MemOK s → step s = .next t → memByte t.mem x ≠ memByte s.mem x →
    (nextTurn s = .host ∧ ∃ a bs rest, s.hostQueue = .store a bs :: rest ∧ a ≤ x ∧ x < a + bs.length) ∨
    ((nextTurn s = .completeOk ∨ ∃ e k, nextTurn s = .completeErr e k) ∧
      ∃ frame n a, s.txn = some (.read frame n a) ∧ a ≤ x ∧ x < a + n)

/-- From R45, R24, R25, R46, R78: every step from a state that meets the invariant reaches one that meets it: the layers'
registers are as R45 says, fit their widths, and their footprints exist; memory keeps its canonical form; the frame in
flight and every frame on the wire decode; and a read in flight has its buffer outside the owned set. -/
def Obligations.InvariantIsKept : Prop :=
  ∀ s t : State, Inv s → step s = .next t → Inv t

/-- From R51, R117, R166, R167: the headline of the ownership protocol. From any state that meets the invariant no
step, by any agent, changes a byte that the peripheral owns. -/
def Obligations.OwnedBytesAreNeverWritten : Prop :=
  ∀ (s t : State) (x : Nat), Inv s → step s = .next t → owned s x = true → memByte t.mem x = memByte s.mem x

/-- From R42, R50, R86, R102, R123, R126: from a state that meets the invariant no step would read a register that holds no
value; and where MEM_VALID of a range is MEM_VALID of its parts (log 4) the transport, the timing generator and the
scan-out engine never fault. That a turn with no step passes is the model's choice (log 9). -/
def Obligations.OnlyTheHostCanFault : Prop :=
  ∀ s : State, Inv s → running s = true →
    (MemValidParts s.platform → nextTurn s ≠ .host → ∃ t, step s = .next t) ∧ ∀ u, step s ≠ .fault (.noValue u)

/-- From R133, R58 point 3: in every infinite run, under any schedule, that stays initialised and in which vertical
blanks never cease, a pending swap does not stay pending. -/
def Obligations.PendingSwapIsConsumed : Prop :=
  ∀ (turns : Nat → Turn) (run : Nat → State), ScheduledRun turns run → VblankFair turns run →
    (∃ m, ∀ k, m ≤ k → (run k).cfg ≠ none) →
    ∀ (m i : Nat) (l : LayerRegs), (run m).layers[i]? = some l → l.mode = .enabled → l.swp = true →
      ∃ k l', m ≤ k ∧ (run k).layers[i]? = some l' ∧ l'.swp = false

/-- From R177, R86, R102: in every infinite run, under any schedule, in which every transaction is completed, a busy
encoder becomes idle. -/
def Obligations.BusyEncoderBecomesIdle : Prop :=
  ∀ (turns : Nat → Turn) (run : Nat → State), ScheduledRun turns run → TransportFair turns run →
    ∀ m, (run m).txn ≠ none → ∃ k, m < k ∧ (run k).txn = none
end

