-- ==== Sys2Proof/Laws/Decode.lean ====
section
/-! SUPPORT. What the request decoder's field checks can answer, the two fields of a size, and that a table word's request
has one meaning on all platforms of one byte order. -/

namespace Sys2Proof

@[simp] theorem fits_iff (w v : Nat) : fits w v = true ↔ v < 2 ^ w := by simp [fits]

/-- Zero fits every field. -/
@[simp] theorem fits_zero (w : Nat) : fits w 0 = true := by simp

theorem fits_of_le {w v u : Nat} (h : fits w v = true) (hu : u ≤ v) : fits w u = true := by
  simp at *; omega

theorem operandField_eq_ok {w v : Nat} {x : BitVec w} (h : operandField w v = .ok x) : x.toNat = v := by
  unfold operandField at h
  split at h
  · next hv => cases h; simpa using Nat.mod_eq_of_lt hv
  · cases h

theorem operandField_toNat {w : Nat} (x : BitVec w) : operandField w x.toNat = .ok x := by
  simp [operandField, x.isLt]

theorem operandField_wide {w v : Nat} (h : 2 ^ w ≤ v) : operandField w v = .error .operandRange := by
  simp [operandField, Nat.not_lt.mpr h]

theorem paramField_eq_ok {w v x : Nat} (h : paramField w v = .ok x) : x = v ∧ fits w v = true := by
  unfold paramField at h
  split at h
  · next hv => cases h; exact ⟨rfl, hv⟩
  · cases h

theorem paramField_fits {w v : Nat} (h : fits w v = true) : paramField w v = .ok v := by simp [paramField, h]

theorem paramField_wide {w v : Nat} (h : 2 ^ w ≤ v) : paramField w v = .error .operandRange := by
  simp [paramField, fits, Nat.not_lt.mpr h]

theorem wordField_eq_ok {v : Nat} {x : BitVec 2} (h : wordField v = .ok x) : x.toNat = v ∧ wordCodeOK x = true := by
  unfold wordField at h
  cases hf : operandField 2 v with
  | error e => rw [hf] at h; cases h
  | ok y =>
    rw [hf] at h
    simp only [bind, Except.bind] at h
    split at h
    · next hw => cases h; exact ⟨operandField_eq_ok hf, hw⟩
    · cases h

theorem wordField_toNat {x : BitVec 2} (h : wordCodeOK x = true) : wordField x.toNat = .ok x := by
  simp [wordField, operandField_toNat, bind, Except.bind, h]

theorem wordField_wide {v : Nat} (h : 2 ^ 2 ≤ v) : wordField v = .error .operandRange := by
  simp [wordField, operandField_wide h, bind, Except.bind]

theorem lo8_toNat (size : BitVec 16) : (lo8 size).toNat = size.toNat % 256 := by simp [lo8, BitVec.extractLsb']

theorem hi8_toNat (size : BitVec 16) : (hi8 size).toNat = size.toNat / 256 := by
  simp [hi8, BitVec.extractLsb', Nat.shiftRight_eq_div_pow]; omega

/-- The two fields of a 16-bit size are the two bytes that its frame carries (R69). -/
theorem sizeFields_eq (o : ByteOrder) (size : BitVec 16) :
    sizeFields o size.toNat = (orderBytes o (lo8 size) (hi8 size)).map BitVec.toNat := by
  cases o <;> simp [sizeFields, orderBytes, lo8_toNat, hi8_toNat]

/-- The two fields of a size, joined in the same order, are the size. -/
theorem joinBytes_sizeFields (o : ByteOrder) (size : BitVec 16) :
    ∃ first second : Byte, sizeFields o size.toNat = [first.toNat, second.toNat] ∧ joinBytes o first second = size := by
  cases o
  · refine ⟨lo8 size, hi8 size, sizeFields_eq .LE size, BitVec.eq_of_toNat_eq ?_⟩
    simp only [joinBytes, lo8_toNat, hi8_toNat, BitVec.toNat_ofNat]; omega
  · refine ⟨hi8 size, lo8 size, sizeFields_eq .BE size, BitVec.eq_of_toNat_eq ?_⟩
    simp only [joinBytes, lo8_toNat, hi8_toNat, BitVec.toNat_ofNat]; omega

/-- Two bytes joined to a size are its fields. -/
theorem sizeFields_joinBytes (o : ByteOrder) (first second : Byte) :
    sizeFields o (joinBytes o first second).toNat = [first.toNat, second.toNat] := by
  cases o <;> simp only [sizeFields, joinBytes, BitVec.toNat_ofNat, List.cons.injEq, and_true] <;> omega

theorem paramField_zero (w : Nat) : paramField w 0 = .ok 0 := paramField_fits (fits_zero w)

theorem decodeCfg_zero (p : Platform) :
    decodeCfg p [0, 0, 0, 0, 0, 0, 0, 0, 0, 0, 0, 0] = .ok ⟨0, 0, 0, 0, 0, 0, 0, 0, 0, 0, 0, 0⟩ := by
  simp only [decodeCfg, paramField_zero]; rfl

theorem decode_tableControl (p q : Platform) (k : RequestKind) :
    decode p (tableControl k) = decode q (tableControl k) := by
  cases k with
  | init =>
    show (do return Instr.ctrlInit (← decodeCfg p [0, 0, 0, 0, 0, 0, 0, 0, 0, 0, 0, 0]) : Except RefuseReason Instr) =
      (do return Instr.ctrlInit (← decodeCfg q [0, 0, 0, 0, 0, 0, 0, 0, 0, 0, 0, 0]))
    rw [decodeCfg_zero, decodeCfg_zero]
  | _ => simp [tableControl, decode, requestKindOf, requestKinds, opLabel, decodeWrite, decodeRead, decodeControl,
      paramField_zero]

/-- The request of a table word carries no operand of a parametric width but zeros, so platforms of one byte order decode
it alike. -/
theorem decode_tableRequest {p q : Platform} (h : p.mrpsByteOrder = q.mrpsByteOrder) (nbits w : Nat) :
    decode p (tableRequest nbits w) = decode q (tableRequest nbits w) := by
  unfold tableRequest
  cases hv : writeVariantOf (tableByte nbits w 0) with
  | some v =>
    cases v <;>
      simp [tableWrite, decode, requestKindOf, requestKinds, opLabel, decodeWrite, hv, h, paramField_zero]
  | none =>
    cases hr : readVariantOf (tableByte nbits w 0) with
    | some v =>
      cases v <;>
        simp [tableRead, decode, requestKindOf, requestKinds, opLabel, decodeRead, hv, hr, paramField_zero]
    | none =>
      cases hk : requestKindOf (tableByte nbits w 0) with
      | none => simp [decode, hv, hr, hk]
      | some k => simpa only [hv, hr, hk] using decode_tableControl p q k

end Sys2Proof
end

