-- ==== Sys2Proof/Laws/Memory.lean ====
section
/-! SUPPORT. Host memory: the canonical form and what each operation keeps, reading after writing. -/

namespace Sys2Proof.Machine

theorem wf_tail {c : Host.Cell} {m : Memory} (h : Memory.wf (c :: m) = true) : m.wf = true := by
  cases m with
  | nil => rfl
  | cons d m => simp [Memory.wf] at h; exact h.2

theorem wf_head_ne {c : Host.Cell} {m : Memory} (h : Memory.wf (c :: m) = true) : c.2 ≠ unlistedByte := by
  cases m with
  | nil => simpa [Memory.wf] using h
  | cons d m => simp [Memory.wf] at h; exact h.1.1

theorem wf_head_lt {c : Host.Cell} {m : Memory} (h : Memory.wf (c :: m) = true) : ∀ d ∈ m, c.1 < d.1 := by
  induction m generalizing c with
  | nil => simp
  | cons d m ih =>
    have hd := ih (wf_tail h)
    simp only [Memory.wf, Bool.and_eq_true, decide_eq_true_eq] at h
    intro e he
    rcases List.mem_cons.mp he with rfl | he
    · exact h.1.2
    · exact h.1.2.trans (hd e he)

theorem wf_cons {c : Host.Cell} {m : Memory} (hv : c.2 ≠ unlistedByte) (hlt : ∀ d ∈ m, c.1 < d.1)
    (hm : m.wf = true) : Memory.wf (c :: m) = true := by
  cases m with
  | nil => simpa [Memory.wf] using hv
  | cons d m => simpa [Memory.wf, hm, hv] using hlt d (by simp)

theorem memByte_of_lt {m : Memory} {a : Nat} (h : ∀ d ∈ m, a < d.1) : memByte m a = unlistedByte := by
  induction m with
  | nil => rfl
  | cons c m ih =>
    have hc := h c (by simp)
    simp [memByte, Nat.ne_of_lt hc, ih (fun d hd => h d (by simp [hd]))]

theorem mem_memSet {m : Memory} {a : Nat} {v : Byte} {c : Host.Cell} (h : c ∈ memSet m a v) :
    c = (a, v) ∨ c ∈ m := by
  induction m with
  | nil => unfold memSet at h; split at h <;> simp_all
  | cons d m ih =>
    unfold memSet at h
    split at h
    · split at h <;> simp_all
    · split at h
      · split at h <;> simp_all
        rcases h with h | h <;> simp [h]
      · rcases List.mem_cons.mp h with h | h
        · simp [h]
        · rcases ih h with h | h <;> simp [h]

/-- A write keeps the canonical form. -/
theorem memSet_wf {m : Memory} (a : Nat) (v : Byte) (h : m.wf = true) : (memSet m a v).wf = true := by
  induction m with
  | nil => unfold memSet; split <;> simp_all [Memory.wf]
  | cons c m ih =>
    have hlt := wf_head_lt h
    have hne := wf_head_ne h
    have hm := wf_tail h
    unfold memSet
    split
    · next hac =>
      split
      · exact h
      · next hv =>
        refine wf_cons hv (fun d hd => ?_) h
        rcases List.mem_cons.mp hd with rfl | hd
        · exact hac
        · exact hac.trans (hlt d hd)
    · split
      · next hac =>
        split
        · exact hm
        · next hv => exact wf_cons hv (fun d hd => by simpa [hac] using hlt d hd) hm
      · next h1 h2 =>
        refine wf_cons hne (fun d hd => ?_) (ih hm)
        rcases mem_memSet hd with rfl | hd
        · simp; omega
        · exact hlt d hd

/-- The byte read after one is written. -/
theorem memByte_memSet {m : Memory} (a : Nat) (v : Byte) (x : Nat) (h : m.wf = true) :
    memByte (memSet m a v) x = if x = a then v else memByte m x := by
  induction m with
  | nil => unfold memSet; split <;> simp_all [memByte]
  | cons c m ih =>
    have hlt := wf_head_lt h
    have hm := wf_tail h
    unfold memSet
    split
    · next hac =>
      have hlow : ∀ d ∈ c :: m, a < d.1 := by
        intro d hd
        rcases List.mem_cons.mp hd with rfl | hd
        · exact hac
        · exact hac.trans (hlt d hd)
      split
      · next hv => split
                   · next hx => subst hx; rw [memByte_of_lt hlow, hv]
                   · rfl
      · simp [memByte]
    · split
      · next hac =>
        split
        · next hv =>
          by_cases hx : x = a
          · subst hx; simp only [if_true, hv]; rw [hac]; exact memByte_of_lt hlt
          · simp [memByte, hx, ← hac]
        · by_cases hx : x = a <;> simp [memByte, hx, ← hac]
      · next h1 h2 =>
        simp only [memByte, ih hm]
        by_cases hx : x = c.1
        · subst hx; simp; intro h3; exact absurd h3.symm h2
        · simp [hx]

theorem memSetBytes_wf {m : Memory} (a : Nat) (bs : List Byte) (h : m.wf = true) :
    (memSetBytes m a bs).wf = true := by
  induction bs generalizing m a with
  | nil => exact h
  | cons v vs ih => exact ih (a + 1) (memSet_wf a v h)

theorem mem_memSetBytes {m : Memory} {a : Nat} {bs : List Byte} {c : Host.Cell} (h : c ∈ memSetBytes m a bs) :
    c ∈ m ∨ (a ≤ c.1 ∧ c.1 < a + bs.length) := by
  induction bs generalizing m a with
  | nil => exact .inl h
  | cons v vs ih =>
    rcases ih h with h | h
    · rcases mem_memSet h with rfl | h
      · exact .inr ⟨le_refl _, by simp⟩
      · exact .inl h
    · exact .inr ⟨by omega, by simp; omega⟩

/-- Bytes outside the stored ones read as before. -/
theorem memByte_memSetBytes_outside {m : Memory} (a : Nat) (bs : List Byte) (x : Nat) (h : m.wf = true)
    (hx : x < a ∨ a + bs.length ≤ x) : memByte (memSetBytes m a bs) x = memByte m x := by
  induction bs generalizing m a with
  | nil => rfl
  | cons v vs ih =>
    have hlen : (v :: vs).length = vs.length + 1 := rfl
    rw [memSetBytes, ih (a + 1) (memSet_wf a v h) (by omega), memByte_memSet a v x h, if_neg (by omega)]

/-- The stored bytes read back in order. -/
theorem memByte_memSetBytes_inside {m : Memory} (a : Nat) (bs : List Byte) (k : Nat) (h : m.wf = true)
    (hk : k < bs.length) : memByte (memSetBytes m a bs) (a + k) = bs[k] := by
  induction bs generalizing m a k with
  | nil => simp at hk
  | cons v vs ih =>
    cases k with
    | zero =>
      rw [memSetBytes, memByte_memSetBytes_outside (a + 1) vs (a + 0) (memSet_wf a v h) (by omega),
        memByte_memSet a v (a + 0) h]
      simp
    | succ k =>
      have := ih (a + 1) k (memSet_wf a v h) (by simpa using hk)
      rw [memSetBytes, show a + (k + 1) = a + 1 + k by omega, this]
      simp

@[simp] theorem memBytes_length (m : Memory) (a n : Nat) : (memBytes m a n).length = n := by
  induction n generalizing a with
  | zero => rfl
  | succ n ih => simp [memBytes, ih]

/-- A read of `n` bytes, byte by byte. -/
theorem memBytes_eq_map (m : Memory) (a n : Nat) :
    memBytes m a n = (List.range n).map (fun k => memByte m (a + k)) := by
  induction n generalizing a with
  | zero => rfl
  | succ n ih =>
    simp only [memBytes, List.range_succ_eq_map, List.map_cons, List.map_map, ih (a + 1)]
    simp only [Nat.add_zero, List.cons.injEq, true_and, Function.comp_def]
    refine List.map_congr_left fun k _ => ?_
    rw [Nat.succ_eq_add_one, show a + 1 + k = a + (k + 1) by omega]

/-- Reading back what was stored gives what was stored. -/
theorem memBytes_memSetBytes {m : Memory} (a : Nat) (bs : List Byte) (h : m.wf = true) :
    memBytes (memSetBytes m a bs) a bs.length = bs := by
  rw [memBytes_eq_map]
  apply List.ext_getElem (by simp)
  intro k h1 h2
  simp [memByte_memSetBytes_inside a bs k h (by simpa using h2)]

end Sys2Proof.Machine
end

