-- ==== Sys2Proof/Laws/State.lean ====
section
/-! SUPPORT. What each named update of the state does to each field. -/

namespace Sys2Proof.Machine

/-! ### setLayer -/

@[simp] theorem setLayer_cfg (i : Nat) (l : LayerRegs) (s : State) : (setLayer i l s).cfg = s.cfg := rfl
@[simp] theorem setLayer_txn (i : Nat) (l : LayerRegs) (s : State) : (setLayer i l s).txn = s.txn := rfl
@[simp] theorem setLayer_wire (i : Nat) (l : LayerRegs) (s : State) : (setLayer i l s).wire = s.wire := rfl
@[simp] theorem setLayer_layers (i : Nat) (l : LayerRegs) (s : State) : (setLayer i l s).layers = s.layers.set i l := rfl
@[simp] theorem setLayer_faults (i : Nat) (l : LayerRegs) (s : State) : (setLayer i l s).faults = s.faults := rfl
@[simp] theorem setLayer_refused (i : Nat) (l : LayerRegs) (s : State) : (setLayer i l s).refused = s.refused := rfl
@[simp] theorem setLayer_mem (i : Nat) (l : LayerRegs) (s : State) : (setLayer i l s).mem = s.mem := rfl
@[simp] theorem setLayer_results (i : Nat) (l : LayerRegs) (s : State) : (setLayer i l s).results = s.results := rfl
@[simp] theorem setLayer_platform (i : Nat) (l : LayerRegs) (s : State) : (setLayer i l s).platform = s.platform := rfl
@[simp] theorem setLayer_hostQueue (i : Nat) (l : LayerRegs) (s : State) : (setLayer i l s).hostQueue = s.hostQueue := rfl
@[simp] theorem setLayer_sched (i : Nat) (l : LayerRegs) (s : State) : (setLayer i l s).sched = s.sched := rfl
@[simp] theorem setLayer_ticks (i : Nat) (l : LayerRegs) (s : State) : (setLayer i l s).ticks = s.ticks := rfl
@[simp] theorem setLayer_tape (i : Nat) (l : LayerRegs) (s : State) : (setLayer i l s).tape = s.tape := rfl
@[simp] theorem setLayer_drawn (i : Nat) (l : LayerRegs) (s : State) : (setLayer i l s).drawn = s.drawn := rfl

/-! ### setCfg -/

@[simp] theorem setCfg_cfg (c : CtrlConfig) (s : State) : (setCfg c s).cfg = some c := rfl
@[simp] theorem setCfg_txn (c : CtrlConfig) (s : State) : (setCfg c s).txn = s.txn := rfl
@[simp] theorem setCfg_wire (c : CtrlConfig) (s : State) : (setCfg c s).wire = s.wire := rfl
@[simp] theorem setCfg_layers (c : CtrlConfig) (s : State) : (setCfg c s).layers = s.layers := rfl
@[simp] theorem setCfg_faults (c : CtrlConfig) (s : State) : (setCfg c s).faults = s.faults := rfl
@[simp] theorem setCfg_refused (c : CtrlConfig) (s : State) : (setCfg c s).refused = s.refused := rfl
@[simp] theorem setCfg_mem (c : CtrlConfig) (s : State) : (setCfg c s).mem = s.mem := rfl
@[simp] theorem setCfg_results (c : CtrlConfig) (s : State) : (setCfg c s).results = s.results := rfl
@[simp] theorem setCfg_platform (c : CtrlConfig) (s : State) : (setCfg c s).platform = s.platform := rfl
@[simp] theorem setCfg_hostQueue (c : CtrlConfig) (s : State) : (setCfg c s).hostQueue = s.hostQueue := rfl
@[simp] theorem setCfg_sched (c : CtrlConfig) (s : State) : (setCfg c s).sched = s.sched := rfl
@[simp] theorem setCfg_ticks (c : CtrlConfig) (s : State) : (setCfg c s).ticks = s.ticks := rfl
@[simp] theorem setCfg_tape (c : CtrlConfig) (s : State) : (setCfg c s).tape = s.tape := rfl
@[simp] theorem setCfg_drawn (c : CtrlConfig) (s : State) : (setCfg c s).drawn = s.drawn := rfl

/-! ### startTxn -/

@[simp] theorem startTxn_cfg (t : InFlight) (s : State) : (startTxn t s).cfg = s.cfg := rfl
@[simp] theorem startTxn_txn (t : InFlight) (s : State) : (startTxn t s).txn = some t := rfl
@[simp] theorem startTxn_wire (t : InFlight) (s : State) : (startTxn t s).wire = s.wire := rfl
@[simp] theorem startTxn_layers (t : InFlight) (s : State) : (startTxn t s).layers = s.layers := rfl
@[simp] theorem startTxn_faults (t : InFlight) (s : State) : (startTxn t s).faults = s.faults := rfl
@[simp] theorem startTxn_refused (t : InFlight) (s : State) : (startTxn t s).refused = s.refused := rfl
@[simp] theorem startTxn_mem (t : InFlight) (s : State) : (startTxn t s).mem = s.mem := rfl
@[simp] theorem startTxn_results (t : InFlight) (s : State) : (startTxn t s).results = s.results := rfl
@[simp] theorem startTxn_platform (t : InFlight) (s : State) : (startTxn t s).platform = s.platform := rfl
@[simp] theorem startTxn_hostQueue (t : InFlight) (s : State) : (startTxn t s).hostQueue = s.hostQueue := rfl
@[simp] theorem startTxn_sched (t : InFlight) (s : State) : (startTxn t s).sched = s.sched := rfl
@[simp] theorem startTxn_ticks (t : InFlight) (s : State) : (startTxn t s).ticks = s.ticks := rfl
@[simp] theorem startTxn_tape (t : InFlight) (s : State) : (startTxn t s).tape = s.tape := rfl
@[simp] theorem startTxn_drawn (t : InFlight) (s : State) : (startTxn t s).drawn = s.drawn := rfl

/-! ### emit -/

@[simp] theorem emit_cfg (w : WireFrame) (s : State) : (emit w s).cfg = s.cfg := rfl
@[simp] theorem emit_txn (w : WireFrame) (s : State) : (emit w s).txn = s.txn := rfl
@[simp] theorem emit_wire (w : WireFrame) (s : State) : (emit w s).wire = s.wire ++ [w] := rfl
@[simp] theorem emit_layers (w : WireFrame) (s : State) : (emit w s).layers = s.layers := rfl
@[simp] theorem emit_faults (w : WireFrame) (s : State) : (emit w s).faults = s.faults := rfl
@[simp] theorem emit_refused (w : WireFrame) (s : State) : (emit w s).refused = s.refused := rfl
@[simp] theorem emit_mem (w : WireFrame) (s : State) : (emit w s).mem = s.mem := rfl
@[simp] theorem emit_results (w : WireFrame) (s : State) : (emit w s).results = s.results := rfl
@[simp] theorem emit_platform (w : WireFrame) (s : State) : (emit w s).platform = s.platform := rfl
@[simp] theorem emit_hostQueue (w : WireFrame) (s : State) : (emit w s).hostQueue = s.hostQueue := rfl
@[simp] theorem emit_sched (w : WireFrame) (s : State) : (emit w s).sched = s.sched := rfl
@[simp] theorem emit_ticks (w : WireFrame) (s : State) : (emit w s).ticks = s.ticks := rfl
@[simp] theorem emit_tape (w : WireFrame) (s : State) : (emit w s).tape = s.tape := rfl
@[simp] theorem emit_drawn (w : WireFrame) (s : State) : (emit w s).drawn = s.drawn := rfl

/-! ### deliver -/

@[simp] theorem deliver_cfg (r : HostResult) (s : State) : (deliver r s).cfg = s.cfg := rfl
@[simp] theorem deliver_txn (r : HostResult) (s : State) : (deliver r s).txn = s.txn := rfl
@[simp] theorem deliver_wire (r : HostResult) (s : State) : (deliver r s).wire = s.wire := rfl
@[simp] theorem deliver_layers (r : HostResult) (s : State) : (deliver r s).layers = s.layers := rfl
@[simp] theorem deliver_faults (r : HostResult) (s : State) : (deliver r s).faults = s.faults := rfl
@[simp] theorem deliver_refused (r : HostResult) (s : State) : (deliver r s).refused = s.refused := rfl
@[simp] theorem deliver_mem (r : HostResult) (s : State) : (deliver r s).mem = s.mem := rfl
@[simp] theorem deliver_results (r : HostResult) (s : State) : (deliver r s).results = s.results ++ [r] := rfl
@[simp] theorem deliver_platform (r : HostResult) (s : State) : (deliver r s).platform = s.platform := rfl
@[simp] theorem deliver_hostQueue (r : HostResult) (s : State) : (deliver r s).hostQueue = s.hostQueue := rfl
@[simp] theorem deliver_sched (r : HostResult) (s : State) : (deliver r s).sched = s.sched := rfl
@[simp] theorem deliver_ticks (r : HostResult) (s : State) : (deliver r s).ticks = s.ticks := rfl
@[simp] theorem deliver_tape (r : HostResult) (s : State) : (deliver r s).tape = s.tape := rfl
@[simp] theorem deliver_drawn (r : HostResult) (s : State) : (deliver r s).drawn = s.drawn := rfl

/-! ### endTxn -/

@[simp] theorem endTxn_cfg (s : State) : (endTxn s).cfg = s.cfg := rfl
@[simp] theorem endTxn_txn (s : State) : (endTxn s).txn = none := rfl
@[simp] theorem endTxn_wire (s : State) : (endTxn s).wire = s.wire := rfl
@[simp] theorem endTxn_layers (s : State) : (endTxn s).layers = s.layers := rfl
@[simp] theorem endTxn_faults (s : State) : (endTxn s).faults = s.faults := rfl
@[simp] theorem endTxn_refused (s : State) : (endTxn s).refused = s.refused := rfl
@[simp] theorem endTxn_mem (s : State) : (endTxn s).mem = s.mem := rfl
@[simp] theorem endTxn_results (s : State) : (endTxn s).results = s.results := rfl
@[simp] theorem endTxn_platform (s : State) : (endTxn s).platform = s.platform := rfl
@[simp] theorem endTxn_hostQueue (s : State) : (endTxn s).hostQueue = s.hostQueue := rfl
@[simp] theorem endTxn_sched (s : State) : (endTxn s).sched = s.sched := rfl
@[simp] theorem endTxn_ticks (s : State) : (endTxn s).ticks = s.ticks := rfl
@[simp] theorem endTxn_tape (s : State) : (endTxn s).tape = s.tape := rfl
@[simp] theorem endTxn_drawn (s : State) : (endTxn s).drawn = s.drawn := rfl

/-! ### afterDraw -/

@[simp] theorem afterDraw_cfg (n : Nat) (s : State) : (afterDraw n s).cfg = s.cfg := rfl
@[simp] theorem afterDraw_txn (n : Nat) (s : State) : (afterDraw n s).txn = s.txn := rfl
@[simp] theorem afterDraw_wire (n : Nat) (s : State) : (afterDraw n s).wire = s.wire := rfl
@[simp] theorem afterDraw_layers (n : Nat) (s : State) : (afterDraw n s).layers = s.layers := rfl
@[simp] theorem afterDraw_faults (n : Nat) (s : State) : (afterDraw n s).faults = s.faults := rfl
@[simp] theorem afterDraw_refused (n : Nat) (s : State) : (afterDraw n s).refused = s.refused := rfl
@[simp] theorem afterDraw_mem (n : Nat) (s : State) : (afterDraw n s).mem = s.mem := rfl
@[simp] theorem afterDraw_results (n : Nat) (s : State) : (afterDraw n s).results = s.results := rfl
@[simp] theorem afterDraw_platform (n : Nat) (s : State) : (afterDraw n s).platform = s.platform := rfl
@[simp] theorem afterDraw_hostQueue (n : Nat) (s : State) : (afterDraw n s).hostQueue = s.hostQueue := rfl
@[simp] theorem afterDraw_sched (n : Nat) (s : State) : (afterDraw n s).sched = s.sched := rfl
@[simp] theorem afterDraw_ticks (n : Nat) (s : State) : (afterDraw n s).ticks = s.ticks := rfl
@[simp] theorem afterDraw_tape (n : Nat) (s : State) : (afterDraw n s).tape = s.tape.drop n := rfl
@[simp] theorem afterDraw_drawn (n : Nat) (s : State) : (afterDraw n s).drawn = s.drawn + (n - s.tape.length) := rfl

/-! ### layerEnabled -/

@[simp] theorem layerEnabled_mode (p : Nat) (pf : PixelFormat) (w : PixelWord) (aw : Nat) : (layerEnabled p pf w aw).mode = .enabled := rfl
@[simp] theorem layerEnabled_pf (p : Nat) (pf : PixelFormat) (w : PixelWord) (aw : Nat) : (layerEnabled p pf w aw).pf = some pf := rfl
@[simp] theorem layerEnabled_word (p : Nat) (pf : PixelFormat) (w : PixelWord) (aw : Nat) : (layerEnabled p pf w aw).word = some w := rfl
@[simp] theorem layerEnabled_cfba (p : Nat) (pf : PixelFormat) (w : PixelWord) (aw : Nat) : (layerEnabled p pf w aw).cfba = some p := rfl
@[simp] theorem layerEnabled_sfba (p : Nat) (pf : PixelFormat) (w : PixelWord) (aw : Nat) : (layerEnabled p pf w aw).sfba = none := rfl
@[simp] theorem layerEnabled_swp (p : Nat) (pf : PixelFormat) (w : PixelWord) (aw : Nat) : (layerEnabled p pf w aw).swp = false := rfl
@[simp] theorem layerEnabled_pitch (p : Nat) (pf : PixelFormat) (w : PixelWord) (aw : Nat) : (layerEnabled p pf w aw).pitch = some aw := rfl

/-! ### layerSwapped -/

@[simp] theorem layerSwapped_mode (p : Nat) (w : PixelWord) (l : LayerRegs) : (layerSwapped p w l).mode = l.mode := rfl
@[simp] theorem layerSwapped_pf (p : Nat) (w : PixelWord) (l : LayerRegs) : (layerSwapped p w l).pf = l.pf := rfl
@[simp] theorem layerSwapped_word (p : Nat) (w : PixelWord) (l : LayerRegs) : (layerSwapped p w l).word = some w := rfl
@[simp] theorem layerSwapped_cfba (p : Nat) (w : PixelWord) (l : LayerRegs) : (layerSwapped p w l).cfba = l.cfba := rfl
@[simp] theorem layerSwapped_sfba (p : Nat) (w : PixelWord) (l : LayerRegs) : (layerSwapped p w l).sfba = some p := rfl
@[simp] theorem layerSwapped_swp (p : Nat) (w : PixelWord) (l : LayerRegs) : (layerSwapped p w l).swp = true := rfl
@[simp] theorem layerSwapped_pitch (p : Nat) (w : PixelWord) (l : LayerRegs) : (layerSwapped p w l).pitch = l.pitch := rfl

/-! ### layerPitched -/

@[simp] theorem layerPitched_mode (width : Nat) (l : LayerRegs) : (layerPitched width l).mode = l.mode := rfl
@[simp] theorem layerPitched_pf (width : Nat) (l : LayerRegs) : (layerPitched width l).pf = l.pf := rfl
@[simp] theorem layerPitched_word (width : Nat) (l : LayerRegs) : (layerPitched width l).word = l.word := rfl
@[simp] theorem layerPitched_cfba (width : Nat) (l : LayerRegs) : (layerPitched width l).cfba = l.cfba := rfl
@[simp] theorem layerPitched_sfba (width : Nat) (l : LayerRegs) : (layerPitched width l).sfba = l.sfba := rfl
@[simp] theorem layerPitched_swp (width : Nat) (l : LayerRegs) : (layerPitched width l).swp = l.swp := rfl
@[simp] theorem layerPitched_pitch (width : Nat) (l : LayerRegs) : (layerPitched width l).pitch = some width := rfl

/-! ### addFault: the fault set and nothing else -/

@[simp] theorem addFault_cfg (r : FaultRecord) (s : State) : (addFault r s).cfg = s.cfg := by
  unfold addFault; split <;> rfl
@[simp] theorem addFault_txn (r : FaultRecord) (s : State) : (addFault r s).txn = s.txn := by
  unfold addFault; split <;> rfl
@[simp] theorem addFault_wire (r : FaultRecord) (s : State) : (addFault r s).wire = s.wire := by
  unfold addFault; split <;> rfl
@[simp] theorem addFault_layers (r : FaultRecord) (s : State) : (addFault r s).layers = s.layers := by
  unfold addFault; split <;> rfl
@[simp] theorem addFault_refused (r : FaultRecord) (s : State) : (addFault r s).refused = s.refused := by
  unfold addFault; split <;> rfl
@[simp] theorem addFault_mem (r : FaultRecord) (s : State) : (addFault r s).mem = s.mem := by
  unfold addFault; split <;> rfl
@[simp] theorem addFault_results (r : FaultRecord) (s : State) : (addFault r s).results = s.results := by
  unfold addFault; split <;> rfl
@[simp] theorem addFault_platform (r : FaultRecord) (s : State) : (addFault r s).platform = s.platform := by
  unfold addFault; split <;> rfl
@[simp] theorem addFault_hostQueue (r : FaultRecord) (s : State) : (addFault r s).hostQueue = s.hostQueue := by
  unfold addFault; split <;> rfl
@[simp] theorem addFault_sched (r : FaultRecord) (s : State) : (addFault r s).sched = s.sched := by
  unfold addFault; split <;> rfl
@[simp] theorem addFault_ticks (r : FaultRecord) (s : State) : (addFault r s).ticks = s.ticks := by
  unfold addFault; split <;> rfl
@[simp] theorem addFault_tape (r : FaultRecord) (s : State) : (addFault r s).tape = s.tape := by
  unfold addFault; split <;> rfl
@[simp] theorem addFault_drawn (r : FaultRecord) (s : State) : (addFault r s).drawn = s.drawn := by
  unfold addFault; split <;> rfl

theorem mem_addFault (r : FaultRecord) (s : State) : r ∈ (addFault r s).faults := by
  unfold addFault; split <;> simp_all

theorem addFault_keeps (r q : FaultRecord) (s : State) (h : q ∈ s.faults) : q ∈ (addFault r s).faults := by
  unfold addFault; split <;> simp_all

/-! ### layerReloaded -/

theorem layerReloaded_of_reloads (l : LayerRegs) (h : reloads l = true) :
    layerReloaded l = { l with cfba := l.sfba, sfba := none, swp := false } := by
  simp [layerReloaded, h]

theorem layerReloaded_of_not_reloads (l : LayerRegs) (h : reloads l = false) : layerReloaded l = l := by
  simp [layerReloaded, h]

@[simp] theorem layerReloaded_mode (l : LayerRegs) : (layerReloaded l).mode = l.mode := by
  unfold layerReloaded; split <;> rfl
@[simp] theorem layerReloaded_pf (l : LayerRegs) : (layerReloaded l).pf = l.pf := by
  unfold layerReloaded; split <;> rfl
@[simp] theorem layerReloaded_word (l : LayerRegs) : (layerReloaded l).word = l.word := by
  unfold layerReloaded; split <;> rfl
@[simp] theorem layerReloaded_pitch (l : LayerRegs) : (layerReloaded l).pitch = l.pitch := by
  unfold layerReloaded; split <;> rfl

end Sys2Proof.Machine
end

