-- ==== Sys2Proof/Laws/Ownership.lean ====
section
/-! SUPPORT. Ranges, access checks and the owned set, byte by byte. -/

namespace Sys2Proof.Machine

@[simp] theorem rangeHas_iff (r : Range) (x : Nat) : rangeHas r x = true ↔ r.base ≤ x ∧ x < r.base + r.len := by
  simp [rangeHas]

/-- Two ranges meet exactly when they share a byte. -/
theorem rangesMeet_iff (r q : Range) :
    rangesMeet r q = true ↔ ∃ x, rangeHas r x = true ∧ rangeHas q x = true := by
  simp only [rangesMeet, decide_eq_true_eq, rangeHas_iff]
  constructor
  · intro h
    exact ⟨max r.base q.base, by omega, by omega⟩
  · rintro ⟨x, h1, h2⟩
    omega

theorem rangeInside_iff (r q : Range) :
    rangeInside r q = true ↔ 0 < r.len ∧ q.base ≤ r.base ∧ r.base + r.len ≤ q.base + q.len := by
  simp [rangeInside, and_assoc]

/-- The validity check says what MEM_VALID says. -/
theorem memValid_iff (p : Platform) (a n : Nat) : memValid p a n = true ↔ MemValid p.memRule a n := by
  unfold memValid; cases p.memRule <;> simp [MemValid]

/-- The access check says that the bytes exist. -/
theorem accessOK_iff (p : Platform) (a n : Nat) : accessOK p a n = true ↔ BytesExist p a n := by
  simp [accessOK, BytesExist, memValid_iff]

/-- A list of regions holds every part of a range that it holds. -/
theorem memValidParts_of_regions {p : Platform} {rs : List Region} (h : p.memRule = .regions rs) :
    MemValidParts p := by
  intro a n b m hv _ hb hm
  rw [h] at hv ⊢
  obtain ⟨r, hr, h1, h2⟩ := hv
  exact ⟨r, hr, by omega, by omega⟩

theorem owned_iff (s : State) (x : Nat) : owned s x = true ↔ ∃ r ∈ ownedRanges s, rangeHas r x = true := by
  simp [owned]

/-- The hazard check finds exactly the ranges that hold an owned byte. -/
theorem meetsOwned_iff (s : State) (a n : Nat) :
    meetsOwned s a n = true ↔ ∃ x, a ≤ x ∧ x < a + n ∧ owned s x = true := by
  simp only [meetsOwned, List.any_eq_true, rangesMeet_iff, owned_iff, rangeHas_iff]
  constructor
  · rintro ⟨r, hr, x, hx, hrx⟩
    exact ⟨x, hx.1, hx.2, r, hr, hrx⟩
  · rintro ⟨x, h1, h2, r, hr, hrx⟩
    exact ⟨r, hr, x, ⟨h1, h2⟩, hrx⟩

theorem meetsOwned_eq_false_iff (s : State) (a n : Nat) : meetsOwned s a n = false ↔ FreeOfOwned s a n := by
  rw [← Bool.not_eq_true, meetsOwned_iff]
  constructor
  · intro h x h1 h2
    by_contra hx
    exact h ⟨x, h1, h2, by simpa using hx⟩
  · rintro h ⟨x, h1, h2, hx⟩
    simp [h x h1 h2] at hx

theorem readMeetsOwned_eq_false_iff (s : State) (a n : Nat) :
    readMeetsOwned s a n = false ↔ s.platform.hostReadOwnedAllowed = true ∨ FreeOfOwned s a n := by
  unfold readMeetsOwned
  cases h : s.platform.hostReadOwnedAllowed <;> simp [meetsOwned_eq_false_iff]

/-- The owned set, by layers. -/
theorem owned_iff_layer (s : State) (x : Nat) :
    owned s x = true ↔ ∃ l ∈ s.layers, ∃ r ∈ layerOwned s.cfg l, rangeHas r x = true := by
  simp only [owned_iff, ownedRanges, List.mem_flatMap]
  constructor
  · rintro ⟨r, ⟨l, hl, hr⟩, h⟩; exact ⟨l, hl, r, hr, h⟩
  · rintro ⟨l, hl, r, hr, h⟩; exact ⟨r, ⟨l, hl, hr⟩, h⟩

/-- The owned set depends on the configuration and the layers alone. -/
theorem owned_congr {s t : State} (hc : t.cfg = s.cfg) (hl : t.layers = s.layers) (x : Nat) :
    owned t x = owned s x := by
  simp [owned, ownedRanges, hc, hl]

end Sys2Proof.Machine
end

