-- ==== Sys2Proof/Laws/Ops.lean ====
section
/-! SUPPORT. What each shared operation can answer, said once. -/

namespace Sys2Proof.Machine

@[simp] theorem raiseFault_ne_next (c : FaultCode) (o : FaultOp) (l : List Nat) (s t : State) :
    raiseFault c o l s ≠ .next t := by simp [raiseFault]

@[simp] theorem raiseBy_ne_next (i : Instr) (c : FaultCode) (s t : State) : raiseBy i c s ≠ .next t := by
  simp [raiseBy]

@[simp] theorem refuse_ne_next (r : RefuseReason) (s t : State) : refuse r s ≠ .next t := by simp [refuse]

@[simp] theorem hold_eq_next (s t : State) : hold s = .next t ↔ t = s := by
  simp [hold, eq_comm]

/-- A short write holds, or puts its frame in flight. -/
theorem issueWrite_next {c : WriteCommand} {s t : State} (h : issueWrite c s = .next t) :
    (s.txn ≠ none ∧ t = s) ∨
      (s.txn = none ∧ t = startTxn (.write (encW s.platform.mrpsByteOrder c)) s) := by
  unfold issueWrite at h
  split at h <;> simp at h <;> subst h <;> simp_all

/-- A long write holds, or passes its three checks and puts its frame in flight. -/
theorem issueLongWrite_next {i : Instr} {mk : List Byte → WriteCommand} {a : Nat} {n : Nat} {s t : State}
    (h : issueLongWrite i mk a n s = .next t) :
    (s.txn ≠ none ∧ t = s) ∨
      (s.txn = none ∧ longDataOK s.platform n = true ∧ readMeetsOwned s a n = false ∧
        accessOK s.platform a n = true ∧
        t = startTxn (.write (encW s.platform.mrpsByteOrder (mk (memBytes s.mem a n)))) s) := by
  unfold issueLongWrite at h
  split at h
  · simp at h; subst h; simp_all
  · repeat' split at h
    all_goals simp at h <;> subst h <;> simp_all

/-- A write with external arguments holds, or draws its bytes and puts its frame in flight. -/
theorem issueExternalWrite_next {mk : List Byte → WriteCommand} {n : Nat} {s t : State}
    (h : issueExternalWrite mk n s = .next t) :
    (s.txn ≠ none ∧ t = s) ∨
      (s.txn = none ∧
        t = startTxn (.write (encW s.platform.mrpsByteOrder (mk (drawnBytes n s)))) (afterDraw n s)) := by
  unfold issueExternalWrite at h
  split at h <;> simp at h <;> subst h <;> simp_all

/-- A read holds, or passes its three checks and puts its frame in flight. -/
theorem issueRead_next {i : Instr} {c : ReadCommand} {a : Nat} {n : Nat} {s t : State}
    (h : issueRead i c a n s = .next t) :
    (s.txn ≠ none ∧ t = s) ∨
      (s.txn = none ∧ readLenOK s.platform (readVariantOfCommand c) n = true ∧
        accessOK s.platform a n = true ∧ meetsOwned s a n = false ∧
        t = startTxn (.read (encR c) n a) s) := by
  unfold issueRead at h
  split at h
  · simp at h; subst h; simp_all
  · repeat' split at h
    all_goals simp at h <;> subst h <;> simp_all

/-- `enable` answers a next state only when its five checks pass. -/
theorem execLayerEnable_next {i : Nat} {p : Nat} {pf : PixelFormat} {word : BitVec 2} {s t : State}
    (h : execLayerEnable i p pf word s = .next t) :
    ∃ w l c, pixelWordOf word = some w ∧ s.layers[i]? = some l ∧ s.cfg = some c ∧ l.mode ≠ .enabled ∧
      aligned s.platform w p = true ∧ accessOK s.platform p (bufferSize c.aw c.ah pf) = true ∧
      t = setLayer i (layerEnabled p pf w c.aw) s := by
  unfold execLayerEnable at h
  repeat' split at h
  all_goals simp at h <;> subst h <;> simp_all

/-- `swap_framebuffer` answers a next state only when its five checks pass. -/
theorem execLayerSwapFramebuffer_next {i : Nat} {p : Nat} {word : BitVec 2} {s t : State}
    (h : execLayerSwapFramebuffer i p word s = .next t) :
    ∃ w l foot, pixelWordOf word = some w ∧ s.layers[i]? = some l ∧ l.mode ≠ .disabled ∧ l.swp = false ∧
      aligned s.platform w p = true ∧ footprint s.cfg l (some p) = some foot ∧
      accessOK s.platform foot.base foot.len = true ∧ t = setLayer i (layerSwapped p w l) s := by
  unfold execLayerSwapFramebuffer at h
  repeat' split at h
  all_goals simp at h <;> subst h <;> simp_all

/-- `is_swap_pending` hands the flag to the host. -/
theorem execLayerIsSwapPending_next {i : Nat} {s t : State} (h : execLayerIsSwapPending i s = .next t) :
    ∃ l, s.layers[i]? = some l ∧ t = deliver (.swapPending l.swp) s := by
  unfold execLayerIsSwapPending at h
  split at h
  · simp at h
  · simp at h; subst h; simp_all

/-- `resize_buffer_pitch` answers a next state only when its checks pass. -/
theorem execLayerResizeBufferPitch_next {i : Nat} {width : Nat} {s t : State}
    (h : execLayerResizeBufferPitch i width s = .next t) :
    ∃ l c feet, s.layers[i]? = some l ∧ l.mode ≠ .disabled ∧ s.cfg = some c ∧ c.aw ≤ width ∧
      pitchFootprints s.cfg (layerPitched width l) = some feet ∧
      feet.all (fun f => accessOK s.platform f.base f.len) = true ∧
      t = setLayer i (layerPitched width l) s := by
  unfold execLayerResizeBufferPitch at h
  repeat' split at h
  all_goals simp at h <;> subst h <;> simp_all

/-- `init` replaces the configuration while no layer is Enabled and the record is legal. -/
theorem execCtrlInit_next {c : CtrlConfig} {s t : State} (h : execCtrlInit c s = .next t) :
    (∀ l ∈ s.layers, l.mode ≠ .enabled) ∧ c.aw ≠ 0 ∧ c.ah ≠ 0 ∧ t = setCfg c s := by
  unfold execCtrlInit at h
  repeat' split at h
  all_goals simp at h <;> subst h <;> simp_all

/-- `clock` hands the pixel clock of the configuration to the host. -/
theorem execCtrlClock_next {s t : State} (h : execCtrlClock s = .next t) :
    ∃ c, s.cfg = some c ∧ t = deliver (.clock (Config.pixelClockHz c)) s := by
  unfold execCtrlClock at h
  split at h
  · simp at h
  · simp at h; subst h; simp_all

/-- The transport's turn passes, or completes the write or the read in flight. -/
theorem complete_next {r : TxResult} {k : Option Nat} {s t : State} (h : complete r k s = .next t) :
    (s.txn = none ∧ t = s) ∨
      (∃ frame, s.txn = some (.write frame) ∧
        t = endTxn (deliver (.write r) (emit ⟨.W, framePrefix k frame, r = .ok⟩ s))) ∨
      (∃ frame n a, s.txn = some (.read frame n a) ∧ accessOK s.platform a n = true ∧
        t = endTxn (deliver (.read r) (emit ⟨.R, framePrefix k frame, r = .ok⟩
          { afterDraw n s with mem := memSetBytes s.mem a (drawnBytes n s) }))) := by
  unfold complete at h
  split at h
  · simp at h; subst h; simp_all
  · simp [completeWrite] at h; subst h; simp_all
  · unfold completeRead at h
    split at h
    · simp at h
    · simp at h; subst h; simp_all

/-- The vertical blank passes before `init`, and reloads every layer after it. -/
theorem vblank_next {s t : State} (h : vblank s = .next t) :
    (s.cfg = none ∧ t = s) ∨ (s.cfg ≠ none ∧ t = { s with layers := s.layers.map layerReloaded }) := by
  unfold vblank at h
  split at h <;> simp at h <;> subst h <;> simp_all

/-- A scan-out read changes nothing. -/
theorem scanRead_next {i : Nat} {a : Nat} {n : Nat} {s t : State} (h : scanRead i a n s = .next t) : t = s := by
  unfold scanRead at h
  repeat' split at h
  all_goals simp at h <;> subst h <;> simp_all

/-- A host store outside the owned set, of bytes that exist, writes those bytes. -/
theorem hostStore_next {a : Nat} {bs : List Byte} {s t : State} (h : hostStore a bs s = .next t) :
    meetsOwned s a bs.length = false ∧ accessOK s.platform a bs.length = true ∧
      t = { s with mem := memSetBytes s.mem a bs } := by
  unfold hostStore at h
  repeat' split at h
  all_goals simp at h <;> subst h <;> simp_all

/-- A host load hands the bytes to the host. -/
theorem hostLoad_next {a : Nat} {n : Nat} {s t : State} (h : hostLoad a n s = .next t) :
    readMeetsOwned s a n = false ∧ accessOK s.platform a n = true ∧
      t = deliver (.load (memBytes s.mem a n)) s := by
  unfold hostLoad at h
  repeat' split at h
  all_goals simp at h <;> subst h <;> simp_all

/-- One round of polling: the flag is delivered, and the loop goes on exactly when it is set. -/
theorem hostPoll_next {i : Nat} {s t : State} (h : hostPoll i s = .next t) :
    ∃ l, s.layers[i]? = some l ∧
      ((l.swp = true ∧ t = { deliver (.swapPending true) s with hostQueue := .pollSwap i :: s.hostQueue }) ∨
        (l.swp = false ∧ t = deliver (.swapPending false) s)) := by
  unfold hostPoll at h
  split at h
  · next u hu =>
    obtain ⟨l, hl, rfl⟩ := execLayerIsSwapPending_next hu
    refine ⟨l, hl, ?_⟩
    cases hs : l.swp <;> simp [hs] at h <;> subst h <;> simp
  all_goals simp_all

/-- What the host's turn can do: nothing, a decoded request, a store, a load, or one round of polling. -/
theorem hostTurn_next {s t : State} (h : hostTurn s = .next t) :
    (s.txn ≠ none ∧ t = s) ∨ (s.hostQueue = [] ∧ t = s) ∨
      (s.txn = none ∧ ∃ act rest, s.hostQueue = act :: rest ∧
        ((∃ r i, act = .request r ∧ decode s.platform r = .ok i ∧ exec i { s with hostQueue := rest } = .next t) ∨
          (∃ a bs, act = .store a bs ∧ hostStore a bs { s with hostQueue := rest } = .next t) ∨
          (∃ a n, act = .load a n ∧ hostLoad a n { s with hostQueue := rest } = .next t) ∨
          (∃ i, act = .pollSwap i ∧ hostPoll i { s with hostQueue := rest } = .next t))) := by
  unfold hostTurn at h
  split at h
  · simp at h; subst h; simp_all
  · next htxn =>
    split at h
    · simp at h; subst h; simp_all
    · next act rest hq =>
      refine .inr (.inr ⟨htxn, act, rest, hq, ?_⟩)
      unfold hostPerform at h
      split at h
      · split at h
        · simp at h
        · next i hd => exact .inl ⟨_, i, rfl, hd, h⟩
      · exact .inr (.inl ⟨_, _, rfl, h⟩)
      · exact .inr (.inr (.inl ⟨_, _, rfl, h⟩))
      · exact .inr (.inr (.inr ⟨_, rfl, h⟩))

/-- A step that goes on is the next turn's agent taking its step in a run that has not stopped. -/
theorem step_next {s t : State} (h : step s = .next t) :
    running s = true ∧ takeTurn (nextTurn s) (afterTurn s) = .next t := by
  unfold step at h
  split at h
  · exact ⟨‹_›, h⟩
  · unfold stoppedOutcome at h; split at h <;> simp at h

/-- Using up a turn touches the schedule alone. -/
theorem afterTurn_block (s : State) :
    (afterTurn s).cfg = s.cfg ∧ (afterTurn s).txn = s.txn ∧ (afterTurn s).wire = s.wire ∧
      (afterTurn s).layers = s.layers ∧ (afterTurn s).faults = s.faults ∧ (afterTurn s).refused = s.refused ∧
      (afterTurn s).mem = s.mem ∧ (afterTurn s).results = s.results ∧ (afterTurn s).platform = s.platform ∧
      (afterTurn s).hostQueue = s.hostQueue ∧ (afterTurn s).tape = s.tape ∧ (afterTurn s).drawn = s.drawn := by
  unfold afterTurn; split <;> simp

@[simp] theorem drawnBytes_length (n : Nat) (s : State) : (drawnBytes n s).length = n := by
  simp [drawnBytes]; omega

end Sys2Proof.Machine
end

