-- ==== Sys2Proof/Laws/PerInstr.lean ====
section
/-! SUPPORT. One law per request: the encoder writes the label and the match byte that the opcode table gives the
row (R84). -/

namespace Sys2Proof.Laws.TableRow

/-- `request_op` of the request's row of the opcode table. -/
def requestOp : Instr → Nat
  | .writeDcsShortP0 _ | .writeDcsShortP1 _ _ | .writeDcsLongWrite _ _ _ | .writeGenericShortP0
  | .writeGenericShortP1 | .writeGenericShortP2 | .writeGenericLongWrite _ _ _
  | .writeSetMaximumReturnPacketSize _ => 0x10
  | .readDcsShort _ _ _ | .readGenericShortP0 _ _ | .readGenericShortP1 _ _ _ | .readGenericShortP2 _ _ _ _ => 0x11
  | .layerEnable _ _ _ _ => 0x20
  | .layerSwapFramebuffer _ _ _ => 0x21
  | .layerIsSwapPending _ => 0x22
  | .layerResizeBufferPitch _ _ => 0x23
  | .ctrlInit _ => 0x30
  | .ctrlClock => 0x31

/-- `match` of the request's row: byte 0 of the frame for a DSI row, the label for a control row. -/
def matchByte : Instr → Nat
  | .writeDcsShortP0 _ => 0x05
  | .writeDcsShortP1 _ _ => 0x15
  | .writeDcsLongWrite _ _ _ => 0x39
  | .writeGenericShortP0 => 0x03
  | .writeGenericShortP1 => 0x13
  | .writeGenericShortP2 => 0x23
  | .writeGenericLongWrite _ _ _ => 0x29
  | .writeSetMaximumReturnPacketSize _ => 0x37
  | .readDcsShort _ _ _ => 0x06
  | .readGenericShortP0 _ _ => 0x04
  | .readGenericShortP1 _ _ _ => 0x14
  | .readGenericShortP2 _ _ _ _ => 0x24
  | .layerEnable _ _ _ _ => 0x20
  | .layerSwapFramebuffer _ _ _ => 0x21
  | .layerIsSwapPending _ => 0x22
  | .layerResizeBufferPitch _ _ => 0x23
  | .ctrlInit _ => 0x30
  | .ctrlClock => 0x31

/-- On every platform the encoded request carries its row's label, and its first command byte, or the label where it has no
command, is its row's match value. -/
def Statement (i : Instr) : Prop :=
  ∀ p : Platform, (encode p i).op = requestOp i ∧ (encode p i).cmd.headD (encode p i).op = matchByte i

theorem writeDcsShortP0 (a : Byte) : Statement (.writeDcsShortP0 a) := fun _ => ⟨rfl, rfl⟩
theorem writeDcsShortP1 (a d : Byte) : Statement (.writeDcsShortP1 a d) := fun _ => ⟨rfl, rfl⟩
theorem writeDcsLongWrite (a : Byte) (dAddr : Nat) (dLen : Nat) : Statement (.writeDcsLongWrite a dAddr dLen) :=
  fun _ => ⟨rfl, rfl⟩
theorem writeGenericShortP0 : Statement .writeGenericShortP0 := fun _ => ⟨rfl, rfl⟩
theorem writeGenericShortP1 : Statement .writeGenericShortP1 := fun _ => ⟨rfl, rfl⟩
theorem writeGenericShortP2 : Statement .writeGenericShortP2 := fun _ => ⟨rfl, rfl⟩
theorem writeGenericLongWrite (a : Byte) (dAddr : Nat) (dLen : Nat) :
    Statement (.writeGenericLongWrite a dAddr dLen) := fun _ => ⟨rfl, rfl⟩
theorem writeSetMaximumReturnPacketSize (size : BitVec 16) : Statement (.writeSetMaximumReturnPacketSize size) :=
  fun _ => ⟨rfl, rfl⟩
theorem readDcsShort (a : Byte) (bAddr : Nat) (n : Nat) : Statement (.readDcsShort a bAddr n) := fun _ => ⟨rfl, rfl⟩
theorem readGenericShortP0 (bAddr : Nat) (n : Nat) : Statement (.readGenericShortP0 bAddr n) := fun _ => ⟨rfl, rfl⟩
theorem readGenericShortP1 (a : Byte) (bAddr : Nat) (n : Nat) : Statement (.readGenericShortP1 a bAddr n) :=
  fun _ => ⟨rfl, rfl⟩
theorem readGenericShortP2 (a0 a1 : Byte) (bAddr : Nat) (n : Nat) :
    Statement (.readGenericShortP2 a0 a1 bAddr n) := fun _ => ⟨rfl, rfl⟩
theorem layerEnable (i : Nat) (p : Nat) (pf : PixelFormat) (word : BitVec 2) :
    Statement (.layerEnable i p pf word) := fun _ => ⟨rfl, rfl⟩
theorem layerSwapFramebuffer (i : Nat) (p : Nat) (word : BitVec 2) :
    Statement (.layerSwapFramebuffer i p word) := fun _ => ⟨rfl, rfl⟩
theorem layerIsSwapPending (i : Nat) : Statement (.layerIsSwapPending i) := fun _ => ⟨rfl, rfl⟩
theorem layerResizeBufferPitch (i : Nat) (width : Nat) : Statement (.layerResizeBufferPitch i width) := fun _ => ⟨rfl, rfl⟩
theorem ctrlInit (cfg : CtrlConfig) : Statement (.ctrlInit cfg) := fun _ => ⟨rfl, rfl⟩
theorem ctrlClock : Statement .ctrlClock := fun _ => ⟨rfl, rfl⟩

end Sys2Proof.Laws.TableRow
end

