-- ==== Sys2Proof/Machine/Assembler.lean ====
section
/-! DEFINITION. The spec's textual syntax of the requests (R80, R81), values in decimal. Nothing in the machine reads
it. -/

namespace Sys2Proof.Machine

/-- The names of R66. -/
def pixelFormatName : PixelFormat → String
  | .argb8888 => "ARGB8888"
  | .rgb888 => "RGB888"
  | .rgb565 => "RGB565"
  | .argb1555 => "ARGB1555"
  | .argb4444 => "ARGB4444"
  | .l8 => "L8"
  | .al44 => "AL44"
  | .al88 => "AL88"

/-- A slice or buffer in host memory, `@addr:len` (R80). -/
def asmSlice (a : Nat) (n : Nat) : String := "@" ++ toString a ++ ":" ++ toString n

/-- The fields of a configuration record (R81). -/
def asmCfg (c : CtrlConfig) : String :=
  "aw=" ++ toString c.aw ++ ", ah=" ++ toString c.ah ++ ", hbp=" ++ toString c.hbp
    ++ ", hfp=" ++ toString c.hfp ++ ", vbp=" ++ toString c.vbp ++ ", vfp=" ++ toString c.vfp
    ++ ", hsw=" ++ toString c.hsw ++ ", vsw=" ++ toString c.vsw
    ++ ", hsync_pol=" ++ toString c.hsyncPol.toNat ++ ", vsync_pol=" ++ toString c.vsyncPol.toNat
    ++ ", de_pol=" ++ toString c.dePol.toNat ++ ", pclk_pol=" ++ toString c.pclkPol.toNat

/-- A request in the syntax of R80 and R81; a reserved WORD code has no spelling. -/
def asm : Instr → Option String
  | .writeDcsShortP0 a => some ("dsi.write DcsShortP0 arg=" ++ toString a.toNat)
  | .writeDcsShortP1 a d =>
    some ("dsi.write DcsShortP1 arg=" ++ toString a.toNat ++ ", data=" ++ toString d.toNat)
  | .writeDcsLongWrite a dAddr dLen =>
    some ("dsi.write DcsLongWrite arg=" ++ toString a.toNat ++ ", data=" ++ asmSlice dAddr dLen)
  | .writeGenericShortP0 => some "dsi.write GenericShortP0"
  | .writeGenericShortP1 => some "dsi.write GenericShortP1"
  | .writeGenericShortP2 => some "dsi.write GenericShortP2"
  | .writeGenericLongWrite a dAddr dLen =>
    some ("dsi.write GenericLongWrite arg=" ++ toString a.toNat ++ ", data=" ++ asmSlice dAddr dLen)
  | .writeSetMaximumReturnPacketSize size =>
    some ("dsi.write SetMaximumReturnPacketSize size=" ++ toString size.toNat)
  | .readDcsShort a bAddr n =>
    some ("dsi.read DcsShort arg=" ++ toString a.toNat ++ ", buf=" ++ asmSlice bAddr n)
  | .readGenericShortP0 bAddr n => some ("dsi.read GenericShortP0, buf=" ++ asmSlice bAddr n)
  | .readGenericShortP1 a bAddr n =>
    some ("dsi.read GenericShortP1 arg=" ++ toString a.toNat ++ ", buf=" ++ asmSlice bAddr n)
  | .readGenericShortP2 a0 a1 bAddr n =>
    some ("dsi.read GenericShortP2 arg0=" ++ toString a0.toNat ++ ", arg1=" ++ toString a1.toNat
      ++ ", buf=" ++ asmSlice bAddr n)
  | .layerEnable i p pf word =>
    (pixelWordOf word).map (fun w => "layer.enable " ++ toString i ++ ", " ++ toString p ++ ", "
      ++ pixelFormatName pf ++ ", " ++ toString (wordBits w))
  | .layerSwapFramebuffer i p word =>
    (pixelWordOf word).map (fun w => "layer.swap " ++ toString i ++ ", " ++ toString p ++ ", "
      ++ toString (wordBits w))
  | .layerIsSwapPending i => some ("r <- layer.pending " ++ toString i)
  | .layerResizeBufferPitch i width => some ("layer.pitch " ++ toString i ++ ", " ++ toString width)
  | .ctrlInit cfg => some ("ctrl.init " ++ asmCfg cfg)
  | .ctrlClock => some "r <- ctrl.clock"

end Sys2Proof.Machine
end

