-- ==== Sys2Proof/Tests/Slice0.lean ====
section
/-! SUPPORT. Tests, their expected values from the vectors of 95_test_vectors.md and the tables of 30_encoding.md, and
for every obligation with hypotheses a witness: concrete states and operands that meet them. -/

namespace Sys2Proof.Machine.Tests

/-! ### The test platform and states of 95_test_vectors.md -/

/-- The test platform: memory 0x1000 to 0xFFFFF, one-byte responses. -/
def platformT : Platform :=
  { resetPlatform with
    memRule := .regions [⟨0x1000, 0x100000⟩]
    lenDcsShort := .oneOf [1]
    lenGenericShortP0 := .oneOf [1]
    lenGenericShortP1 := .oneOf [1]
    lenGenericShortP2 := .oneOf [1] }

/-- Configuration T. -/
def cfgT : CtrlConfig := ⟨4, 2, 2, 2, 1, 1, 1, 1, 0, 0, 0, 0⟩

/-- S0: right after reset, two layers. -/
def s0 : State := State.resetOn platformT 1

/-- ST: after `ctrl.init T`. -/
def st : State := { s0 with cfg := some cfgT }

/-- A layer enabled on an RGB565 buffer at 0x10000. -/
def layerA : LayerRegs := ⟨.enabled, some .rgb565, some .w16, some 0x10000, none, false, some 4⟩

/-- That layer with a swap to 0x20000 pending. -/
def layerB : LayerRegs := { layerA with sfba := some 0x20000, swp := true }

/-- SA: layer 0 enabled. -/
def sa : State := { st with layers := [layerA, LayerRegs.reset] }

/-- The state of vector L17: SA with a swap pending. -/
def sb : State := { st with layers := [layerB, LayerRegs.reset] }

/-- SB with a read in flight, a frame on the wire, a byte in memory and a byte on the tape. -/
def busy : State :=
  { sb with
    txn := some (.read [0x06#8, 0x0A#8] 1 0x9000)
    wire := [⟨.W, [0x05#8], false⟩]
    mem := [(0x8000, 0xAA#8)]
    tape := [0x9C#8] }

/-- The code a step faults with. -/
def faultCode : Out → Option FaultCode
  | .fault (.swapBeforeEnable _) => some .swapBeforeEnable
  | .fault (.enableWhileEnabled _) => some .enableWhileEnabled
  | .fault (.swapWhilePending _) => some .swapWhilePending
  | .fault (.footprintInvalid _) => some .footprintInvalid
  | .fault (.bufferMisaligned _) => some .bufferMisaligned
  | .fault (.ownedBufferAccess _) => some .ownedBufferAccess
  | .fault (.resizeBeforeEnable _) => some .resizeBeforeEnable
  | .fault (.pitchIllegal _) => some .pitchIllegal
  | .fault (.readLen _) => some .readLen
  | .fault (.notInitialised _) => some .notInitialised
  | .fault (.initWhileEnabled _) => some .initWhileEnabled
  | .fault (.configIllegal _) => some .configIllegal
  | .fault (.layerIndex _) => some .layerIndex
  | .fault (.longDataTooLong _) => some .longDataTooLong
  | _ => none

/-- What a field of the next state is. -/
def nextField {α : Type} (f : State → α) : Out → Option α
  | .next t => some (f t)
  | _ => none

/-- Layer 0's registers. -/
def layer0 (s : State) : Option LayerRegs := s.layers[0]?

/-- The wire after the transport completes the transaction that a request starts. -/
def wireAfter (turn : Turn) : Out → Option (List WireFrame)
  | .next t => nextField State.wire (takeTurn turn t)
  | _ => none

/-! ### Well-formedness -/

theorem test_wf_enable_reserved_word : wellFormed platformT (.layerEnable 0 0x10000 .rgb565 3#2) = false := by decide
theorem test_wf_swap_reserved_word : wellFormed platformT (.layerSwapFramebuffer 0 0x20000 3#2) = false := by decide
theorem test_wf_enable_wide : wellFormed platformT (.layerEnable 0 0x100000000 .rgb565 2#2) = false := by decide
theorem test_wf_pitch_wide : wellFormed platformT (.layerResizeBufferPitch 0 0x100000000) = false := by decide
theorem test_wf_cfg_wide : wellFormed platformT (.ctrlInit { cfgT with vsw := 0x10000 }) = false := by decide
theorem test_wf_slice_wide : wellFormed platformT (.writeDcsLongWrite 0x2A#8 0x100000000 4) = false := by decide
theorem test_wf_buffer_wide : wellFormed platformT (.readDcsShort 0x0A#8 0x100000000 1) = false := by decide
theorem test_wf_enable : wellFormed platformT (.layerEnable 0 0x10000 .rgb565 2#2) = true := by decide

/-! ### Decoding: one record per row, written out from R64, R65, R66, R67, R77 -/

theorem test_decode_dcsShortP0 : decode platformT ⟨0x10, [0x05, 0x11], []⟩ = .ok (.writeDcsShortP0 0x11#8) := by rfl
theorem test_decode_dcsShortP1 : decode platformT ⟨0x10, [0x15, 0x36, 0x01], []⟩ = .ok (.writeDcsShortP1 0x36#8 0x01#8) := by rfl
theorem test_decode_dcsLongWrite :
    decode platformT ⟨0x10, [0x39, 0x2A], [0x8000, 4]⟩ = .ok (.writeDcsLongWrite 0x2A#8 0x8000 4) := by rfl
theorem test_decode_genericShortP0 : decode platformT ⟨0x10, [0x03], []⟩ = .ok .writeGenericShortP0 := by rfl
theorem test_decode_genericShortP1 : decode platformT ⟨0x10, [0x13], []⟩ = .ok .writeGenericShortP1 := by rfl
theorem test_decode_genericShortP2 : decode platformT ⟨0x10, [0x23], []⟩ = .ok .writeGenericShortP2 := by rfl
theorem test_decode_genericLongWrite :
    decode platformT ⟨0x10, [0x29, 0xB0], [0x8004, 1]⟩ = .ok (.writeGenericLongWrite 0xB0#8 0x8004 1) := by rfl
theorem test_decode_setMaximumReturnPacketSize :
    decode platformT ⟨0x10, [0x37, 0x01, 0x00], []⟩ = .ok (.writeSetMaximumReturnPacketSize 1#16) := by rfl
/-- W16: the high byte first. -/
theorem test_decode_setMaximumReturnPacketSize_be :
    decode { platformT with mrpsByteOrder := .BE } ⟨0x10, [0x37, 0x12, 0x34], []⟩ =
      .ok (.writeSetMaximumReturnPacketSize 0x1234#16) := by rfl
/-- DV14, in either byte order; and a command of one field, which is not of format FM. -/
theorem test_refusal_size :
    decode platformT ⟨0x10, [0x37, 0x00, 0x100], []⟩ = .error .operandRange ∧
    decode { platformT with mrpsByteOrder := .BE } ⟨0x10, [0x37, 0x100, 0x00], []⟩ = .error .operandRange ∧
    decode platformT ⟨0x10, [0x37, 0x01], []⟩ = .error .badFields := ⟨rfl, rfl, rfl⟩
theorem test_decode_readDcsShort :
    decode platformT ⟨0x11, [0x06, 0x0A], [0x9000, 1]⟩ = .ok (.readDcsShort 0x0A#8 0x9000 1) := by rfl
theorem test_decode_readGenericShortP0 :
    decode platformT ⟨0x11, [0x04], [0x9000, 1]⟩ = .ok (.readGenericShortP0 0x9000 1) := by rfl
theorem test_decode_readGenericShortP1 :
    decode platformT ⟨0x11, [0x14, 0xDA], [0x9000, 1]⟩ = .ok (.readGenericShortP1 0xDA#8 0x9000 1) := by rfl
theorem test_decode_readGenericShortP2 :
    decode platformT ⟨0x11, [0x24, 0x01, 0x02], [0x9000, 1]⟩ = .ok (.readGenericShortP2 0x01#8 0x02#8 0x9000 1) := by rfl
theorem test_decode_enable :
    decode platformT ⟨0x20, [], [1, 0x30000, 5, 0]⟩ = .ok (.layerEnable 1 0x30000 .l8 0#2) := by rfl
theorem test_decode_swap : decode platformT ⟨0x21, [], [0, 0x20000, 1]⟩ = .ok (.layerSwapFramebuffer 0 0x20000 1#2) := by rfl
theorem test_decode_isSwapPending : decode platformT ⟨0x22, [], [1]⟩ = .ok (.layerIsSwapPending 1) := by rfl
theorem test_decode_resizeBufferPitch : decode platformT ⟨0x23, [], [0, 8]⟩ = .ok (.layerResizeBufferPitch 0 8) := by rfl
theorem test_decode_init :
    decode platformT ⟨0x30, [], [4, 2, 2, 2, 1, 1, 1, 1, 0, 0, 0, 0]⟩ = .ok (.ctrlInit cfgT) := by rfl
theorem test_decode_clock : decode platformT ⟨0x31, [], []⟩ = .ok .ctrlClock := by rfl

/-- The table's words: a match byte, and the frame bytes where the row's frame has them (R84). -/
theorem test_table_words :
    decodeTableWord 24 0x013615 = some (.writeDcsShortP1 0x36#8 0x01#8) ∧
    decodeTableWord 24 0x123437 = some (.writeSetMaximumReturnPacketSize 0x1234#16) ∧
    decodeTableWord 8 0x39 = some (.writeDcsLongWrite 0#8 0 0) ∧
    decodeTableWord 24 0x020124 = some (.readGenericShortP2 0x01#8 0x02#8 0 0) ∧
    decodeTableWord 8 0x20 = some (.layerEnable 0 0 .argb8888 0#2) ∧
    decodeTableWord 8 0x31 = some .ctrlClock ∧
    decodeTableWord 8 0x40 = none := by decide

/-- The discriminant wins where a match byte is a discriminant and a label (log 16). -/
theorem test_table_word_0x23 : decodeTableWord 8 0x23 = some .writeGenericShortP2 := by decide

/-- DV9 to DV16. -/
theorem test_refusals :
    decode platformT ⟨0x10, [0x06, 0x0A], []⟩ = .error .unknownCode ∧
    decode platformT ⟨0x11, [0x05, 0x11], [0x9000, 1]⟩ = .error .unknownCode ∧
    decode platformT ⟨0x20, [], [0, 0x10000, 2, 3]⟩ = .error .reservedWord ∧
    decode platformT ⟨0x10, [0x05, 0x100], []⟩ = .error .operandRange ∧
    decode platformT ⟨0x40, [], []⟩ = .error .unknownOp ∧
    decode platformT ⟨0x10, [0x15, 0x36], []⟩ = .error .badFields := ⟨rfl, rfl, rfl, rfl, rfl, rfl⟩

/-- A write or a read without a DT (log 15). -/
theorem test_refusal_no_dt :
    decode platformT ⟨0x10, [], []⟩ = .error .badFields ∧ decode platformT ⟨0x11, [], [0x9000, 1]⟩ = .error .badFields :=
  ⟨rfl, rfl⟩

/-- A platform of other widths (R9): 16-bit addresses, a 12-bit pitch, 8-bit configuration fields. -/
def platformNarrow : Platform := { platformT with addrBits := 16, pitchBits := 12, cfgBits := 8 }

/-- Each parametric width, at the first value that does not fit. -/
theorem test_narrow_refusals :
    decode platformNarrow ⟨0x11, [0x06, 0x0A], [0x10000, 1]⟩ = .error .operandRange ∧
    decode platformNarrow ⟨0x23, [], [0, 0x1000]⟩ = .error .operandRange ∧
    decode platformNarrow ⟨0x30, [], [4, 0x100, 2, 2, 1, 1, 1, 1, 0, 0, 0, 0]⟩ = .error .operandRange ∧
    decode platformNarrow ⟨0x23, [], [0, 0xFFF]⟩ = .ok (.layerResizeBufferPitch 0 0xFFF) := ⟨rfl, rfl, rfl, rfl⟩

/-- F04 where the buffer passes 2^16 (R116). -/
theorem test_narrow_footprint :
    faultCode (exec (.layerEnable 0 0xFFF8 .rgb565 1#2) { st with platform := platformNarrow }) =
      some .footprintInvalid := by decide

/-- DV1 to DV8. -/
theorem test_frame_checker :
    decodeFrame platformT [] = .error .empty ∧
    decodeFrame platformT [0x05#8] = .error .badLength ∧
    decodeFrame platformT [0x07#8] = .error .unknownCode ∧
    decodeFrame platformT [0x37#8, 0x00#8, 0x02#8] = .ok (.write (.setMaximumReturnPacketSize 512#16)) ∧
    decodeFrame platformT [0x29#8, 0x00#8] = .ok (.write (.genericLongWrite 0x00#8 [])) ∧
    decodeFrame platformT [0x24#8, 0x01#8] = .error .badLength := ⟨rfl, rfl, rfl, rfl, rfl, rfl⟩

/-! ### Requests -/

/-- WT1. -/
theorem test_write_dcsShortP1 :
    wireAfter .completeOk (exec (.writeDcsShortP1 0x36#8 0x00#8) s0) =
      some [⟨.W, [0x15#8, 0x36#8, 0x00#8], true⟩] := by decide
/-- WT2: a failed write leaves a prefix. -/
theorem test_write_dcsShortP0_err :
    wireAfter (.completeErr ⟨7⟩ 1) (exec (.writeDcsShortP0 0x11#8) s0) = some [⟨.W, [0x05#8], false⟩] := by decide
/-- WT4. -/
theorem test_write_genericLongWrite :
    wireAfter .completeOk (exec (.writeGenericLongWrite 0x01#8 0x8000 2)
      { s0 with mem := [(0x8000, 0xAA#8), (0x8001, 0xBB#8)] }) =
      some [⟨.W, [0x29#8, 0x01#8, 0xAA#8, 0xBB#8], true⟩] := by decide
/-- WT5 and WT9: the order of the checks. -/
theorem test_write_dcsLongWrite_faults :
    faultCode (exec (.writeDcsLongWrite 0x2C#8 0x10008 4) sa) = some .ownedBufferAccess ∧
    faultCode (exec (.writeDcsLongWrite 0x00#8 0x10000 8)
      { sa with platform := { platformT with maxLongData := some 4 } }) = some .longDataTooLong := by decide
/-- W10: the drawn bytes are sent. -/
theorem test_write_genericShortP2 :
    wireAfter .completeOk (exec .writeGenericShortP2 { s0 with tape := [0x01#8, 0x02#8] }) =
      some [⟨.W, [0x23#8, 0x01#8, 0x02#8], true⟩] := by decide
/-- W16: the size's high byte first. -/
theorem test_write_setMaximumReturnPacketSize_be :
    wireAfter .completeOk (exec (.writeSetMaximumReturnPacketSize 0x1234#16)
      { s0 with platform := { platformT with mrpsByteOrder := .BE } }) =
      some [⟨.W, [0x37#8, 0x12#8, 0x34#8], true⟩] := by decide
/-- RV1: the response fills the buffer. -/
theorem test_read_dcsShort_completion :
    nextField (fun t => (t.txn, memByte t.mem 0x9000, t.wire.getLast?)) (takeTurn .completeOk busy) =
      some (none, 0x9C#8, some ⟨.R, [0x06#8, 0x0A#8], true⟩) := by decide
/-- RV9 and RV10: the order of the checks, and the last owned byte. -/
theorem test_read_dcsShort_faults :
    faultCode (exec (.readDcsShort 0x0A#8 0x0800 2) s0) = some .readLen ∧
    faultCode (exec (.readDcsShort 0x0A#8 0x1000F 1) sa) = some .ownedBufferAccess := by decide
/-- L1. -/
theorem test_enable : nextField layer0 (exec (.layerEnable 0 0x10000 .rgb565 1#2) st) = some (some layerA) := by
  decide
/-- L7, L11 and L12. -/
theorem test_enable_faults :
    faultCode (exec (.layerEnable 2 0x10000 .rgb565 1#2) s0) = some .layerIndex ∧
    faultCode (exec (.layerEnable 0 0x10002 .argb8888 2#2) st) = some .bufferMisaligned ∧
    faultCode (exec (.layerEnable 0 0xFFFF8 .rgb565 1#2) st) = some .footprintInvalid := by decide
/-- L17. -/
theorem test_swap : nextField layer0 (exec (.layerSwapFramebuffer 0 0x20000 1#2) sa) = some (some layerB) := by
  decide
/-- L16 and L18. -/
theorem test_swap_faults :
    faultCode (exec (.layerSwapFramebuffer 0 0x20000 1#2) st) = some .swapBeforeEnable ∧
    faultCode (exec (.layerSwapFramebuffer 0 0x30000 1#2) sb) = some .swapWhilePending := by decide
/-- L27. -/
theorem test_isSwapPending :
    nextField State.results (exec (.layerIsSwapPending 0) sb) = some [.swapPending true] := by decide
/-- L31a. -/
theorem test_resize :
    nextField layer0 (exec (.layerResizeBufferPitch 0 0x20000) sa) =
      some (some { layerA with pitch := some 0x20000 }) := by decide
/-- L32 and L34. -/
theorem test_resize_faults :
    faultCode (exec (.layerResizeBufferPitch 0 3) sa) = some .pitchIllegal ∧
    faultCode (exec (.layerResizeBufferPitch 0 0x40000) sa) = some .footprintInvalid := by decide
/-- CV1. -/
theorem test_init : nextField State.cfg (exec (.ctrlInit cfgT) s0) = some (some cfgT) := by decide
/-- CV6: F0B comes before F0C. -/
theorem test_init_fault : faultCode (exec (.ctrlInit { cfgT with aw := 0 }) sa) = some .initWhileEnabled := by decide
/-- CV7. -/
theorem test_clock_fault : faultCode (exec .ctrlClock s0) = some .notInitialised := by decide
/-- CV8. -/
theorem test_clock : nextField State.results (exec .ctrlClock st) = some [.clock (Config.pixelClockHz cfgT)] := by rfl
/-- L23: the reload, and what is owned after it. -/
theorem test_vblank :
    nextField layer0 (takeTurn .vblank sb) = some (some { layerA with cfba := some 0x20000 }) ∧
    nextField (fun t => (owned t 0x1000F, owned t 0x20000, owned t 0x20010)) (takeTurn .vblank sb) =
      some (false, true, false) := by decide
/-- M1, M2 and M3: both ends of the owned range. -/
theorem test_host_store :
    faultCode (hostStore 0x1000F [0#8] sa) = some .ownedBufferAccess ∧
    faultCode (hostStore 0xFFFE [0#8, 0#8, 0#8] sa) = some .ownedBufferAccess ∧
    nextField State.mem (hostStore 0x10010 [5#8] sa) = some [(0x10010, 5#8)] := by decide
/-- The polling loop of R82 goes on while the flag is set. -/
theorem test_poll :
    nextField State.hostQueue (hostPoll 0 sb) = some [.pollSwap 0] ∧
    nextField State.hostQueue (hostPoll 0 sa) = some [] := by decide

/-! ### Witnesses: the hypotheses of each obligation can be met

Each theorem gives concrete states and operands that meet the hypotheses of the obligation its name ends with, for every
clause, at the ends of the ranges the clauses name. -/

theorem free_of {s : State} {a n : Nat} (h : meetsOwned s a n = false) : FreeOfOwned s a n :=
  (meetsOwned_eq_false_iff s a n).mp h

theorem notFree_of {s : State} {a n : Nat} (h : meetsOwned s a n = true) : ¬ FreeOfOwned s a n := fun hf => by
  simp [(meetsOwned_eq_false_iff s a n).mpr hf] at h

theorem exist_of {p : Platform} {a n : Nat} (h : accessOK p a n = true) : BytesExist p a n :=
  (accessOK_iff p a n).mp h

theorem notExist_of {p : Platform} {a n : Nat} (h : accessOK p a n = false) : ¬ BytesExist p a n := fun he => by
  simp [(accessOK_iff p a n).mpr he] at h

theorem witness_WriteFrameBytes :
    writeVariantOfCommand (.dcsLongWrite 0x00#8 []) = writeVariantOfCommand (.dcsLongWrite 0xFF#8 [0x01#8]) := rfl

theorem witness_ByteZeroNamesVariantAndDirection :
    (encW .LE (.dcsShortP1 0x01#8 0x02#8)).head? = (encW .BE (.dcsShortP1 0xFF#8 0x00#8)).head? ∧
    (encR (.genericShortP1 0x00#8)).head? = (encR (.genericShortP1 0xFF#8)).head? := ⟨rfl, rfl⟩

theorem witness_FrameDecodesToItsCommand :
    (∀ x, WriteCommand.genericShortP1 [0x5A#8] = .genericShortP1 x → x.length = platformT.extArgsP1) ∧
    (∀ x, WriteCommand.genericShortP2 [0x01#8, 0x02#8] = .genericShortP2 x → x.length = platformT.extArgsP2) := by
  constructor <;> (intro x h; cases h; rfl)

theorem witness_DecodedFrameIsTheEncoding :
    decodeFrame platformT [0x37#8, 0x34#8, 0x12#8] = .ok (.write (.setMaximumReturnPacketSize 0x1234#16)) ∧
    decodeFrame platformT [0x23#8, 0x01#8, 0x02#8] = .ok (.write (.genericShortP2 [0x01#8, 0x02#8])) ∧
    decodeFrame platformT [0x24#8, 0x01#8, 0x02#8] = .ok (.read (.genericShortP2 0x01#8 0x02#8)) := ⟨rfl, rfl, rfl⟩

theorem witness_FrameCheckerVerdicts :
    ((∀ v, discW v ≠ 0x07#8) ∧ ∀ v, discR v ≠ 0x07#8) ∧
    (0x03#8 ∈ [0x03#8, 0x04#8] ∧ [0x00#8].length ≠ 0) ∧
    (0x06#8 ∈ [0x05#8, 0x06#8, 0x14#8] ∧ ([] : List Byte).length ≠ 1 ∧ [0x00#8, 0x00#8].length ≠ 1) ∧
    (0x37#8 ∈ [0x15#8, 0x24#8, 0x37#8] ∧ [0x00#8].length ≠ 2 ∧ [0x00#8, 0x00#8, 0x00#8].length ≠ 2) ∧
    ([0x00#8, 0x00#8].length ≠ platformT.extArgsP1 ∧ [0x00#8].length ≠ platformT.extArgsP2) ∧
    (0x39#8 ∈ [0x29#8, 0x39#8] ∧ ([] : List Byte).length < 1) := by
  refine ⟨⟨fun v => ?_, fun v => ?_⟩, by decide, by decide, by decide, by decide, by decide⟩ <;> cases v <;> decide

theorem witness_RequestDecodesToItself : wellFormed platformT (.layerEnable 5 0xFFFFFFFF .al88 2#2) = true := by decide

theorem witness_AdmittedRequestIsItsEncoding :
    decode platformT ⟨0x20, [], [5, 0xFFFFFFFF, 7, 2]⟩ = .ok (.layerEnable 5 0xFFFFFFFF .al88 2#2) := by rfl

theorem witness_IllFormedRequestsAreRefused :
    (0x12 ∉ [0x10, 0x11, 0x20, 0x21, 0x22, 0x23, 0x30, 0x31]) ∧ (∀ v, (discW v).toNat ≠ 0x06) ∧
    (∀ v, (discR v).toNat ≠ 0x05) ∧ [0, 0].length ≠ 1 ∧ [0].length ≠ 2 ∧ [0].length ≠ 0 ∧
    (0x30, 12) ∈ [(0x20, 4), (0x21, 3), (0x22, 1), (0x23, 2), (0x30, 12), (0x31, 0)] ∧
    (List.replicate 11 0).length ≠ 12 ∧ [0x05] ≠ [] ∧ 2 ^ 8 ≤ 0x100 ∧ 2 ^ 16 ≤ 0x10000 ∧
    2 ^ platformT.addrBits ≤ 0x100000000 ∧ 0xFFFFFFFF < 2 ^ platformT.addrBits ∧
    2 ^ platformT.pitchBits ≤ 0x100000000 ∧ 2 ^ 3 ≤ 8 ∧ 7 < 2 ^ 3 ∧ 2 ^ 2 ≤ 4 ∧
    ([4, 2, 2, 2, 1, 1, 1, 0x10000].length = 8 ∧ ∃ v ∈ [4, 2, 2, 2, 1, 1, 1, 0x10000], 2 ^ platformT.cfgBits ≤ v) ∧
    ([0, 0, 0, 2].length = 4 ∧ ∃ v ∈ [0, 0, 0, 2], 2 ≤ v) := by
  refine ⟨by decide, fun v => ?_, fun v => ?_, by decide⟩ <;> cases v <;> decide

theorem witness_WrittenOutRecordsDecode : platformT.addrBits = 32 ∧ platformT.pitchBits = 32 ∧
    platformT.mrpsByteOrder = .LE ∧ ({ platformT with mrpsByteOrder := .BE } : Platform).mrpsByteOrder = .BE :=
  ⟨rfl, rfl, rfl, rfl⟩

theorem witness_ResetValues : LayerRegs.reset ∈ (State.resetOn platformT 0).layers := by decide

theorem witness_ResetOwnsNothing :
    BytesExist platformT 0x1000 0 ∧ BytesExist platformT 0xFFFFF [0x00#8].length :=
  ⟨exist_of (by decide), exist_of (by decide)⟩

theorem witness_ShortWriteStartsItsTransaction : sa.txn = none := rfl

/-- A slice that ends where memory ends, of the longest length; and an owned slice where reads of owned bytes are
allowed. -/
theorem witness_LongWriteStartsItsTransaction :
    (∃ s : State, s.txn = none ∧ (∀ m, s.platform.maxLongData = some m → 4 ≤ m) ∧ s.platform.maxLongData = some 4 ∧
      FreeOfOwned s 0xFFFFC 4 ∧ BytesExist s.platform 0xFFFFC 4) ∧
    (∃ s : State, s.txn = none ∧ (∀ m, s.platform.maxLongData = some m → 16 ≤ m) ∧
      s.platform.hostReadOwnedAllowed = true ∧ ¬ FreeOfOwned s 0x10000 16 ∧
      BytesExist s.platform 0x10000 16) :=
  ⟨⟨{ sa with platform := { platformT with maxLongData := some 4 } }, rfl, fun m h => by cases h; decide, rfl,
      free_of (by decide), exist_of (by decide)⟩,
    ⟨{ sa with platform := { platformT with hostReadOwnedAllowed := true } }, rfl, fun m h => (by cases h), rfl,
      notFree_of (by decide), exist_of (by decide)⟩⟩

theorem witness_ExternalWriteSendsWhatIsDrawn :
    ∃ s : State, s.txn = none ∧ s.tape = [0x5A#8] ++ [0x01#8] ∧ [0x5A#8].length = s.platform.extArgsP1 ∧
      s.tape = [0x5A#8, 0x01#8] ++ [] ∧ [0x5A#8, 0x01#8].length = s.platform.extArgsP2 :=
  ⟨{ s0 with tape := [0x5A#8, 0x01#8] }, rfl, rfl, rfl, rfl, rfl⟩

/-- The byte just past the owned range. -/
theorem witness_ReadStartsItsTransaction :
    sa.txn = none ∧ BytesExist sa.platform 0x10010 1 ∧ FreeOfOwned sa 0x10010 1 ∧
    readLenOK sa.platform .dcsShort 1 = true ∧ readLenOK sa.platform .genericShortP0 1 = true ∧
    readLenOK sa.platform .genericShortP1 1 = true ∧ readLenOK sa.platform .genericShortP2 1 = true :=
  ⟨rfl, exist_of (by decide), free_of (by decide), by decide, by decide, by decide, by decide⟩

theorem witness_BusyEncoderHoldsRequests :
    busy.txn ≠ none ∧ requestKindOfInstr (.writeDcsShortP0 0x11#8) = .write ∧
    requestKindOfInstr (.readGenericShortP0 0x9000 1) = .read := ⟨by decide, rfl, rfl⟩

/-- One byte too long; the last owned byte; one byte past the end of memory. -/
theorem witness_LongWriteFaultsInOrder :
    (∃ s : State, s.txn = none ∧ ∃ m, s.platform.maxLongData = some m ∧ m < 5) ∧
    (sa.txn = none ∧ (∀ m, sa.platform.maxLongData = some m → 1 ≤ m) ∧ sa.platform.hostReadOwnedAllowed = false ∧
      ¬ FreeOfOwned sa 0x1000F 1) ∧
    (sa.txn = none ∧ (∀ m, sa.platform.maxLongData = some m → 1 ≤ m) ∧ FreeOfOwned sa 0x100000 1 ∧
      ¬ BytesExist sa.platform 0x100000 1) :=
  ⟨⟨{ s0 with platform := { platformT with maxLongData := some 4 } }, rfl, 4, rfl, by decide⟩,
    ⟨rfl, fun m h => (by cases h), rfl, notFree_of (by decide)⟩,
    ⟨rfl, fun m h => (by cases h), free_of (by decide), notExist_of (by decide)⟩⟩

theorem witness_ReadFaultsInOrder :
    sa.txn = none ∧ readLenOK sa.platform .dcsShort 0 = false ∧ readLenOK sa.platform .dcsShort 2 = false ∧
    (readLenOK sa.platform .genericShortP2 1 = true ∧ ¬ BytesExist sa.platform 0x0FFF 1) ∧
    (readLenOK sa.platform .genericShortP0 1 = true ∧ BytesExist sa.platform 0x1000F 1 ∧
      ¬ FreeOfOwned sa 0x1000F 1) :=
  ⟨rfl, by decide, by decide, ⟨by decide, notExist_of (by decide)⟩, by decide, exist_of (by decide),
    notFree_of (by decide)⟩

theorem witness_WriteCompletion :
    ({ s0 with txn := some (.write [0x05#8, 0x11#8]) } : State).txn = some (.write [0x05#8, 0x11#8]) ∧
    2 ≤ [0x05#8, 0x11#8].length := ⟨rfl, by decide⟩

theorem witness_ReadCompletion :
    busy.txn = some (.read [0x06#8, 0x0A#8] 1 0x9000) ∧ busy.mem.wf = true ∧
    BytesExist busy.platform 0x9000 1 ∧ busy.tape = [0x9C#8] ++ [] ∧ [0x9C#8].length = 1 :=
  ⟨rfl, by decide, exist_of (by decide), rfl, rfl⟩

theorem witness_DsiDoesNotDependOnInit :
    ((∀ l ∈ s0.layers, l.mode = .disabled) ∧
      exec (.readDcsShort 0x0A#8 0x9000 1) s0 = .next { s0 with txn := some (.read [0x06#8, 0x0A#8] 1 0x9000) }) ∧
    exec (.ctrlInit cfgT) s0 = .next st ∧ ∃ t, exec .ctrlClock st = .next t := ⟨⟨by decide, rfl⟩, rfl, _, rfl⟩

theorem witness_LayerIndexCheckedFirst : s0.layers.length ≤ 2 ∧ 2#2 ≠ 3#2 := by decide

/-- The buffer ends where memory ends. -/
theorem witness_EnableWritesItsLayer :
    pixelWordOf 1#2 = some .w16 ∧ st.layers[1]? = some LayerRegs.reset ∧ st.cfg = some cfgT ∧
    LayerRegs.reset.mode = .disabled ∧ 0xFFFF0 % fbAlign st.platform .w16 = 0 ∧
    BytesExist st.platform 0xFFFF0 (cfgT.aw * cfgT.ah * bpp .rgb565) :=
  ⟨rfl, rfl, rfl, rfl, by decide, exist_of (by decide)⟩

theorem witness_EnableFaultsInOrder :
    (pixelWordOf 1#2 = some .w16 ∧ s0.layers[0]? = some LayerRegs.reset ∧ s0.cfg = none) ∧
    (sa.layers[0]? = some layerA ∧ sa.cfg = some cfgT ∧ layerA.mode = .enabled) ∧
    (st.layers[0]? = some LayerRegs.reset ∧ st.cfg = some cfgT ∧ LayerRegs.reset.mode = .disabled ∧
      0x10001 % fbAlign st.platform .w16 ≠ 0) ∧
    (0xFFFF2 % fbAlign st.platform .w16 = 0 ∧
      ¬ BytesExist st.platform 0xFFFF2 (cfgT.aw * cfgT.ah * bpp .rgb565)) :=
  ⟨⟨rfl, rfl, rfl⟩, ⟨rfl, rfl, rfl⟩, ⟨rfl, rfl, rfl, by decide⟩, by decide, notExist_of (by decide)⟩

theorem witness_EnableTakesOwnership :
    st.cfg = some cfgT ∧ exec (.layerEnable 0 0x10000 .rgb565 1#2) st = .next sa := ⟨rfl, rfl⟩

theorem witness_SwapWritesTheShadow :
    pixelWordOf 1#2 = some .w16 ∧ sa.layers[0]? = some layerA ∧ layerA.mode = .enabled ∧ layerA.swp = false ∧
    sa.cfg = some cfgT ∧ layerA.pf = some .rgb565 ∧ layerA.pitch = some 4 ∧
    0xFFFF0 % fbAlign sa.platform .w16 = 0 ∧
    BytesExist sa.platform 0xFFFF0 (4 * cfgT.ah * bpp .rgb565) :=
  ⟨rfl, rfl, rfl, rfl, rfl, rfl, rfl, by decide, exist_of (by decide)⟩

theorem witness_SwapFaultsInOrder :
    pixelWordOf 1#2 = some .w16 ∧ (sa.layers[1]? = some LayerRegs.reset ∧ LayerRegs.reset.mode = .disabled) ∧
    (sb.layers[0]? = some layerB ∧ layerB.mode = .enabled ∧ layerB.swp = true) ∧
    (sa.layers[0]? = some layerA ∧ layerA.mode = .enabled ∧ layerA.swp = false ∧
      0x20001 % fbAlign sa.platform .w16 ≠ 0) ∧
    (0xFFFF2 % fbAlign sa.platform .w16 = 0 ∧ sa.cfg = some cfgT ∧ layerA.pf = some .rgb565 ∧
      layerA.pitch = some 4 ∧
      ¬ BytesExist sa.platform 0xFFFF2 (4 * cfgT.ah * bpp .rgb565)) :=
  ⟨rfl, ⟨rfl, rfl⟩, ⟨rfl, rfl, rfl⟩, ⟨rfl, rfl, rfl, by decide⟩, by decide, rfl, rfl, rfl, notExist_of (by decide)⟩

theorem witness_SwapOwnsBothBuffers :
    sa.layers[0]? = some layerA ∧ sa.cfg = some cfgT ∧ layerA.pf = some .rgb565 ∧ layerA.pitch = some 4 ∧
    exec (.layerSwapFramebuffer 0 0x20000 1#2) sa = .next sb := ⟨rfl, rfl, rfl, rfl, rfl⟩

theorem witness_IsSwapPendingReturnsTheFlag :
    sb.layers[1]? = some LayerRegs.reset ∧ sb.layers[0]? = some layerB ∧ sb.layers.length ≤ 2 := by decide

/-- The pitch at the active width; and a pitch with which the pending buffer too exists. -/
theorem witness_ResizePitchIsImmediate :
    (sa.layers[0]? = some layerA ∧ layerA.mode = .enabled ∧ sa.cfg = some cfgT ∧ layerA.pf = some .rgb565 ∧
      layerA.cfba = some 0x10000 ∧ layerA.swp = false ∧ cfgT.aw ≤ 4 ∧
      BytesExist sa.platform 0x10000 (4 * cfgT.ah * bpp .rgb565)) ∧
    (sb.layers[0]? = some layerB ∧ layerB.swp = true ∧ layerB.sfba = some 0x20000 ∧
      BytesExist sb.platform 0x10000 (8 * cfgT.ah * bpp .rgb565) ∧
      BytesExist sb.platform 0x20000 (8 * cfgT.ah * bpp .rgb565)) :=
  ⟨⟨rfl, rfl, rfl, rfl, rfl, rfl, by decide, exist_of (by decide)⟩, rfl, rfl, rfl, exist_of (by decide),
    exist_of (by decide)⟩

/-- Below the active width by one; the displayed buffer too long by one line of pixels; and only the pending one. -/
theorem witness_ResizePitchFaultsInOrder :
    (st.layers[0]? = some LayerRegs.reset ∧ LayerRegs.reset.mode = .disabled) ∧
    (sa.layers[0]? = some layerA ∧ layerA.mode = .enabled ∧ sa.cfg = some cfgT ∧
      3 < cfgT.aw) ∧
    (layerA.pf = some .rgb565 ∧ layerA.cfba = some 0x10000 ∧ cfgT.aw ≤ 0x3C001 ∧
      ¬ BytesExist sa.platform 0x10000 (0x3C001 * cfgT.ah * bpp .rgb565)) ∧
    (sb.layers[0]? = some layerB ∧ layerB.swp = true ∧ layerB.sfba = some 0x20000 ∧
      BytesExist sb.platform 0x10000 (0x38001 * cfgT.ah * bpp .rgb565) ∧
      ¬ BytesExist sb.platform 0x20000 (0x38001 * cfgT.ah * bpp .rgb565)) :=
  ⟨⟨rfl, rfl⟩, ⟨rfl, rfl, rfl, by decide⟩, ⟨rfl, rfl, by decide, notExist_of (by decide)⟩, rfl, rfl, rfl,
    exist_of (by decide), notExist_of (by decide)⟩

theorem witness_ResizePitchWritesOnlyThePitch :
    ∃ t, exec (.layerResizeBufferPitch 0 8) sa = .next t ∧ layer0 t = some { layerA with pitch := some 8 } :=
  ⟨_, rfl, rfl⟩

theorem witness_LayersAreIndependent :
    exec (.layerEnable 0 0x10000 .rgb565 1#2) st = .next sa ∧
    exec (.layerSwapFramebuffer 0 0x20000 1#2) sa = .next sb ∧
    (∃ t, exec (.layerIsSwapPending 0) sb = .next t) ∧ ∃ t, exec (.layerResizeBufferPitch 0 8) sb = .next t :=
  ⟨rfl, rfl, ⟨_, rfl⟩, _, rfl⟩

/-- A width and height of exactly 1, over a configuration already set. -/
theorem witness_InitReplacesTheConfiguration :
    (∀ l ∈ st.layers, l.mode = .disabled) ∧ 1 ≤ ({ cfgT with aw := 1, ah := 1 } : CtrlConfig).aw ∧
    1 ≤ ({ cfgT with aw := 1, ah := 1 } : CtrlConfig).ah := by decide

theorem witness_InitFaultsInOrder :
    (∃ l ∈ sa.layers, l.mode = .enabled) ∧
    ((∀ l ∈ s0.layers, l.mode = .disabled) ∧ ({ cfgT with aw := 0 } : CtrlConfig).aw = 0 ∧
      ({ cfgT with ah := 0 } : CtrlConfig).ah = 0) := by decide

theorem witness_ClockReportsTheConfiguration : st.cfg = some cfgT ∧ s0.cfg = none := ⟨rfl, rfl⟩

theorem witness_VerticalBlankReloads :
    sb.cfg ≠ none ∧ (sb.layers[0]? = some layerB ∧ layerB.mode = .enabled ∧ layerB.swp = true) ∧
    (sb.layers[1]? = some LayerRegs.reset ∧ LayerRegs.reset.mode = .disabled) ∧ layerA.swp = false := by decide

theorem witness_NoVerticalBlankBeforeInit : s0.cfg = none := rfl

/-- The rich state is as the invariant says. -/
theorem layersOK_busy : LayersOK busy := by
  refine ⟨fun c h => ?_, fun l hl => ?_⟩
  · cases h; decide
  · have h : l = layerB ∨ l = LayerRegs.reset := by simpa [busy, sb] using hl
    rcases h with rfl | rfl
    · exact ⟨cfgT, .rgb565, .w16, 0x10000, 4, rfl, rfl, rfl, rfl, rfl, by decide, fun _ => by decide, by decide,
        by decide, by decide, fun pending hp => by cases hp; decide⟩
    · exact ⟨rfl, rfl, rfl⟩

theorem inv_busy : Inv busy := by
  refine ⟨by unfold MemOK; decide, layersOK_busy, ⟨⟨.dcsShort 0x0A#8, rfl, rfl⟩, by decide, by decide, ?_⟩, ?_⟩
  · exact free_of (s := busy) (a := 0x9000) (n := 1) (by decide)
  · intro w hw
    have h : w = ⟨.W, [0x05#8], false⟩ := by simpa [busy] using hw
    subst h
    exact ⟨[0x05#8, 0x11#8], .write (.dcsShortP0 0x11#8), rfl, trivial, ⟨[0x11#8], rfl⟩, fun h => by cases h⟩

/-- The invariant does not read the schedule. -/
theorem inv_sched {s : State} (ts : List Turn) (h : Inv s) : Inv { s with sched := ts } := h

theorem witness_VerticalBlankReleases :
    LayersOK busy ∧ busy.cfg ≠ none ∧ ∃ t, takeTurn .vblank busy = .next t := ⟨layersOK_busy, by decide, _, rfl⟩

theorem witness_ScanOutReadsOnlyOwnedBytes :
    scanEnabled 0 0x1000F 1 sa = true ∧ takeTurn (.scan 0 0x1000F 1) sa = .next sa := ⟨by decide, rfl⟩

theorem witness_HostStoreRespectsOwnership :
    sa.mem.wf = true ∧
    (FreeOfOwned sa 0x10010 [0x00#8].length ∧ BytesExist sa.platform 0x10010 [0x00#8].length) ∧
    ¬ FreeOfOwned sa 0x1000F [0x00#8].length ∧
    (FreeOfOwned sa 0x0FFF [0x00#8].length ∧ ¬ BytesExist sa.platform 0x0FFF [0x00#8].length) :=
  ⟨by decide, ⟨free_of (by decide), exist_of (by decide)⟩, notFree_of (by decide), free_of (by decide),
    notExist_of (by decide)⟩

theorem witness_HostLoadRespectsOwnership :
    (FreeOfOwned sa 0xFFFF 1 ∧ BytesExist sa.platform 0xFFFF 1) ∧
    (sa.platform.hostReadOwnedAllowed = false ∧ ¬ FreeOfOwned sa 0x10000 1) ∧
    (FreeOfOwned sa 0x100000 1 ∧ ¬ BytesExist sa.platform 0x100000 1) :=
  ⟨⟨free_of (by decide), exist_of (by decide)⟩, ⟨rfl, notFree_of (by decide)⟩, free_of (by decide),
    notExist_of (by decide)⟩

theorem witness_CompletionAndVerticalBlankCommute :
    (∃ a, takeTurn .completeOk busy = .next a) ∧ (∃ a, takeTurn (.completeErr ⟨7⟩ 1) busy = .next a) ∧
    ∃ b, takeTurn .vblank busy = .next b := ⟨⟨_, rfl⟩, ⟨_, rfl⟩, _, rfl⟩

/-- SA about to perform a request. -/
def saWith (r : RawRequest) : State := { sa with sched := [.host], hostQueue := [.request r] }

theorem witness_StepPerformsTheDecodedRequest :
    (running (saWith ⟨0x21, [], [0, 0x20000, 1]⟩) = true ∧ (saWith ⟨0x21, [], [0, 0x20000, 1]⟩).txn = none ∧
      nextTurn (saWith ⟨0x21, [], [0, 0x20000, 1]⟩) = .host ∧
      decode platformT ⟨0x21, [], [0, 0x20000, 1]⟩ = .ok (.layerSwapFramebuffer 0 0x20000 1#2)) ∧
    decode platformT ⟨0x21, [], [0, 0x20000, 3]⟩ = .error .reservedWord ∧
    (running s0 = true ∧ s0.txn = none ∧ s0.platform.mrpsByteOrder = .LE ∧
      decodeTableWord 24 0x013615 = some (.writeDcsShortP1 0x36#8 0x01#8)) ∧
    decode { platformT with mrpsByteOrder := .BE } (tableRequest 24 0x341237) =
      .ok (.writeSetMaximumReturnPacketSize 0x1234#16) :=
  ⟨⟨rfl, rfl, rfl, rfl⟩, rfl, ⟨rfl, rfl, rfl, by decide⟩, rfl⟩

theorem witness_FaultsAreSticky :
    (∃ f, exec (.layerResizeBufferPitch 0 3) sa = .fault f) ∧
    ({ sa with faults := [⟨.pitchIllegal, .request .resizeBufferPitch, [0, 3]⟩] } : State).faults ≠ [] ∧
    (({ sa with refused := true } : State).faults = [] ∧ ({ sa with refused := true } : State).refused = true) :=
  ⟨⟨_, rfl⟩, by simp, rfl, rfl⟩

theorem witness_OnlyVerticalBlankMovesTheDisplayedBuffer :
    ∃ t l', step { sb with sched := [.vblank] } = .next t ∧ sb.layers[0]? = some layerB ∧ t.layers[0]? = some l' ∧
      layerB.mode = .enabled ∧ l'.cfba ≠ layerB.cfba ∧ layerB.swp = true ∧ l'.swp = false :=
  ⟨_, { layerA with cfba := some 0x20000 }, rfl, rfl, rfl, rfl, by decide, rfl, rfl⟩

theorem witness_OnlySwapSetsSwapPending :
    ∃ t, step (saWith ⟨0x21, [], [0, 0x20000, 1]⟩) = .next t ∧ sa.layers[0]? = some layerA ∧
      t.layers[0]? = some layerB ∧ layerA.swp = false ∧ layerB.swp = true := ⟨_, rfl, rfl, rfl, rfl, rfl⟩

theorem witness_EnabledLayersStayEnabled :
    ∃ t, step (saWith ⟨0x23, [], [0, 8]⟩) = .next t ∧ sa.layers[0]? = some layerA ∧ layerA.mode = .enabled ∧
      layerA.swp = false := ⟨_, rfl, rfl, rfl, rfl⟩

theorem witness_OnlyInitWritesTheConfiguration :
    ∃ t, step { s0 with sched := [.host], hostQueue := [.request (encode platformT (.ctrlInit cfgT))] } = .next t ∧
      t.cfg ≠ s0.cfg := ⟨_, rfl, by decide⟩

theorem witness_ParametersAreFixed : ∃ t, step { busy with sched := [.completeOk] } = .next t := ⟨_, rfl⟩

theorem witness_WireLogGrowsOnlyAtCompletion :
    ∃ t, step { busy with sched := [.completeErr ⟨7⟩ 1] } = .next t ∧ t.wire ≠ busy.wire := ⟨_, rfl, by decide⟩

theorem witness_MemoryChangesOnlyByStoreOrResponse :
    (MemOK busy ∧ ∃ t, step { busy with sched := [.completeOk] } = .next t ∧
      memByte t.mem 0x9000 ≠ memByte busy.mem 0x9000) ∧
    ∃ t, step { sa with sched := [.host], hostQueue := [.store 0x10010 [0x05#8]] } = .next t ∧
      memByte t.mem 0x10010 ≠ memByte sa.mem 0x10010 := ⟨⟨inv_busy.1, _, rfl, by decide⟩, _, rfl, by decide⟩

theorem witness_InvariantIsKept :
    Inv { busy with sched := [.completeErr ⟨7⟩ 1] } ∧ (∃ t, step { busy with sched := [.completeErr ⟨7⟩ 1] } = .next t) ∧
    Inv { busy with sched := [.vblank] } ∧ ∃ t, step { busy with sched := [.vblank] } = .next t :=
  ⟨inv_sched _ inv_busy, ⟨_, rfl⟩, inv_sched _ inv_busy, _, rfl⟩

/-- The last byte of the displayed buffer and the first of the pending one. -/
theorem witness_OwnedBytesAreNeverWritten :
    Inv { busy with sched := [.completeOk] } ∧ (∃ t, step { busy with sched := [.completeOk] } = .next t) ∧
    owned busy 0x1000F = true ∧ owned busy 0x20000 = true := ⟨inv_sched _ inv_busy, ⟨_, rfl⟩, by decide, by decide⟩

theorem witness_OnlyTheHostCanFault :
    Inv { busy with sched := [.completeOk] } ∧ running { busy with sched := [.completeOk] } = true ∧
    MemValidParts busy.platform ∧ nextTurn { busy with sched := [.completeOk] } ≠ .host :=
  ⟨inv_sched _ inv_busy, rfl, memValidParts_of_regions rfl, by decide⟩

/-- SB after `k` vertical blanks, each given by the free schedule. -/
def blanks : Nat → State
  | 0 => sb
  | k + 1 => { sb with layers := [{ layerA with cfba := some 0x20000 }, LayerRegs.reset], ticks := k + 1 }

theorem blanks_cfg (k : Nat) : (blanks k).cfg ≠ none := by cases k <;> simp [blanks, sb, st]

theorem witness_PendingSwapIsConsumed :
    ScheduledRun (fun _ => .vblank) blanks ∧ VblankFair (fun _ => .vblank) blanks ∧
    (∃ m, ∀ k, m ≤ k → (blanks k).cfg ≠ none) ∧ (blanks 0).layers[0]? = some layerB ∧ layerB.mode = .enabled ∧
    layerB.swp = true :=
  ⟨fun k => by cases k <;> exact ⟨rfl, rfl⟩, fun _ m => ⟨m, le_refl m, rfl⟩, ⟨0, fun k _ => blanks_cfg k⟩, rfl, rfl,
    rfl⟩

/-- S0 with a write in flight, after `k` turns of the transport given by the free schedule. -/
def completions : Nat → State
  | 0 => { s0 with txn := some (.write [0x03#8]) }
  | k + 1 => { s0 with wire := [⟨.W, [0x03#8], true⟩], results := [.write .ok], ticks := k + 1 }

theorem witness_BusyEncoderBecomesIdle :
    ScheduledRun (fun _ => .completeOk) completions ∧ TransportFair (fun _ => .completeOk) completions ∧
    (completions 0).txn ≠ none :=
  ⟨fun k => by cases k <;> exact ⟨rfl, rfl⟩, fun m _ => ⟨m, le_refl m, .inl rfl⟩, by decide⟩

end Sys2Proof.Machine.Tests
end

/-! PROOFS for 00_scope.md: the parameters of R9 are fixed (O53), and a host step performs the decoded request (O47). -/

namespace Sys2Proof.Machine

/-! ### What a request does to the state -/

/-- Every way a request that goes on can leave the state (R77): held, a transaction started, its external bytes drawn
first or not, one layer written, the configuration replaced, or a result handed to the host. -/
inductive RequestEffect (s : State) : State → Prop where
  | held : RequestEffect s s
  | started (x : InFlight) : RequestEffect s (startTxn x s)
  | drawnAndStarted (n : Nat) (x : InFlight) : RequestEffect s (startTxn x (afterDraw n s))
  | layerWritten (i : Nat) (l : LayerRegs) : RequestEffect s (setLayer i l s)
  | configured (c : CtrlConfig) : RequestEffect s (setCfg c s)
  | delivered (r : HostResult) : RequestEffect s (deliver r s)

theorem issueWrite_effect {c : WriteCommand} {s t : State} (h : issueWrite c s = .next t) : RequestEffect s t := by
  obtain ⟨-, rfl⟩ | ⟨-, rfl⟩ := issueWrite_next h
  · exact .held
  · exact .started _

theorem issueLongWrite_effect {i : Instr} {mk : List Byte → WriteCommand} {a n : Nat} {s t : State}
    (h : issueLongWrite i mk a n s = .next t) : RequestEffect s t := by
  obtain ⟨-, rfl⟩ | ⟨-, -, -, -, rfl⟩ := issueLongWrite_next h
  · exact .held
  · exact .started _

theorem issueExternalWrite_effect {mk : List Byte → WriteCommand} {n : Nat} {s t : State}
    (h : issueExternalWrite mk n s = .next t) : RequestEffect s t := by
  obtain ⟨-, rfl⟩ | ⟨-, rfl⟩ := issueExternalWrite_next h
  · exact .held
  · exact .drawnAndStarted _ _

theorem issueRead_effect {i : Instr} {c : ReadCommand} {a n : Nat} {s t : State}
    (h : issueRead i c a n s = .next t) : RequestEffect s t := by
  obtain ⟨-, rfl⟩ | ⟨-, -, -, -, rfl⟩ := issueRead_next h
  · exact .held
  · exact .started _

/-- What each row of the opcode table does when it goes on is one of the six effects. -/
theorem exec_effect {i : Instr} {s t : State} (h : exec i s = .next t) : RequestEffect s t := by
  cases i with
  | writeDcsShortP0 | writeDcsShortP1 | writeGenericShortP0 | writeSetMaximumReturnPacketSize =>
    exact issueWrite_effect h
  | writeDcsLongWrite | writeGenericLongWrite => exact issueLongWrite_effect h
  | writeGenericShortP1 | writeGenericShortP2 => exact issueExternalWrite_effect h
  | readDcsShort | readGenericShortP0 | readGenericShortP1 | readGenericShortP2 => exact issueRead_effect h
  | layerEnable =>
    obtain ⟨_, _, _, -, -, -, -, -, -, rfl⟩ := execLayerEnable_next h
    exact .layerWritten _ _
  | layerSwapFramebuffer =>
    obtain ⟨_, _, _, -, -, -, -, -, -, -, rfl⟩ := execLayerSwapFramebuffer_next h
    exact .layerWritten _ _
  | layerIsSwapPending =>
    obtain ⟨_, -, rfl⟩ := execLayerIsSwapPending_next h
    exact .delivered _
  | layerResizeBufferPitch =>
    obtain ⟨_, _, _, -, -, -, -, -, -, rfl⟩ := execLayerResizeBufferPitch_next h
    exact .layerWritten _ _
  | ctrlInit =>
    obtain ⟨-, -, -, rfl⟩ := execCtrlInit_next h
    exact .configured _
  | ctrlClock =>
    obtain ⟨_, -, rfl⟩ := execCtrlClock_next h
    exact .delivered _

/-! ### The parameters are fixed (R9, R18) -/

/-- The two states have the same parameters of R9, NUM_LAYERS (the number of layers) among them. -/
def SameParameters (s t : State) : Prop := t.platform = s.platform ∧ t.layers.length = s.layers.length

theorem RequestEffect.sameParameters {s t : State} (h : RequestEffect s t) : SameParameters s t := by
  cases h with
  | layerWritten i l => exact ⟨rfl, by simp⟩
  | held | started | drawnAndStarted | configured | delivered => exact ⟨rfl, rfl⟩

theorem complete_sameParameters {r : TxResult} {k : Option Nat} {s t : State} (h : complete r k s = .next t) :
    SameParameters s t := by
  obtain ⟨-, rfl⟩ | ⟨_, -, rfl⟩ | ⟨_, _, _, -, -, rfl⟩ := complete_next h <;> exact ⟨rfl, rfl⟩

/-- The vertical blank rewrites the layers one for one. -/
theorem vblank_sameParameters {s t : State} (h : vblank s = .next t) : SameParameters s t := by
  obtain ⟨-, rfl⟩ | ⟨-, rfl⟩ := vblank_next h
  · exact ⟨rfl, rfl⟩
  · exact ⟨rfl, by simp⟩

theorem hostPoll_sameParameters {i : Nat} {s t : State} (h : hostPoll i s = .next t) : SameParameters s t := by
  obtain ⟨_, -, ⟨-, rfl⟩ | ⟨-, rfl⟩⟩ := hostPoll_next h <;> exact ⟨rfl, rfl⟩

theorem hostTurn_sameParameters {s t : State} (h : hostTurn s = .next t) : SameParameters s t := by
  obtain ⟨-, rfl⟩ | ⟨-, rfl⟩ | ⟨-, act, rest, -, hact⟩ := hostTurn_next h
  · exact ⟨rfl, rfl⟩
  · exact ⟨rfl, rfl⟩
  · show SameParameters { s with hostQueue := rest } t
    obtain ⟨_, _, -, -, hexec⟩ | ⟨_, _, -, hstore⟩ | ⟨_, _, -, hload⟩ | ⟨_, -, hpoll⟩ := hact
    · exact (exec_effect hexec).sameParameters
    · obtain ⟨-, -, rfl⟩ := hostStore_next hstore
      exact ⟨rfl, rfl⟩
    · obtain ⟨-, -, rfl⟩ := hostLoad_next hload
      exact ⟨rfl, rfl⟩
    · exact hostPoll_sameParameters hpoll

theorem takeTurn_sameParameters {a : Turn} {s t : State} (h : takeTurn a s = .next t) : SameParameters s t := by
  cases a with
  | host => exact hostTurn_sameParameters h
  | completeOk => exact complete_sameParameters h
  | completeErr e k => exact complete_sameParameters h
  | vblank => exact vblank_sameParameters h
  | scan i a n =>
    obtain rfl := scanRead_next h
    exact ⟨rfl, rfl⟩

@[simp] theorem afterTurn_platform (s : State) : (afterTurn s).platform = s.platform := by
  unfold afterTurn; split <;> rfl

@[simp] theorem afterTurn_layers (s : State) : (afterTurn s).layers = s.layers := by
  unfold afterTurn; split <;> rfl

@[simp] theorem afterTurn_txn (s : State) : (afterTurn s).txn = s.txn := by
  unfold afterTurn; split <;> rfl

@[simp] theorem afterTurn_hostQueue (s : State) : (afterTurn s).hostQueue = s.hostQueue := by
  unfold afterTurn; split <;> rfl

/-- Settles O53: using up the turn touches the schedule alone, and no agent's turn changes a parameter. -/
theorem parametersAreFixed : Obligations.ParametersAreFixed := by
  intro s t h
  obtain ⟨-, hturn⟩ := step_next h
  simpa [SameParameters] using takeTurn_sameParameters hturn

/-! ### A host step performs the decoded request (R79) -/

/-- With the encoder idle, a host turn of a run that goes on performs the head of the host's queue. -/
theorem step_host {s : State} {act : HostAction} {rest : List HostAction} (hrun : running s = true)
    (hidle : s.txn = none) (hturn : nextTurn s = .host) (hq : s.hostQueue = act :: rest) :
    step s = hostPerform act { afterTurn s with hostQueue := rest } := by
  simp [step, hrun, hturn, takeTurn, hostTurn, hidle, hq]

theorem hostPerform_request_ok {s : State} {r : RawRequest} {i : Instr} (h : decode s.platform r = .ok i) :
    hostPerform (.request r) s = exec i s := by
  simp [hostPerform, h]

theorem hostPerform_request_error {s : State} {r : RawRequest} {reason : RefuseReason}
    (h : decode s.platform r = .error reason) : hostPerform (.request r) s = refuse reason s := by
  simp [hostPerform, h]

/-- The step after a request is placed performs it in the state it was placed in: the placed turn and the placed request
are used up. -/
theorem step_placeRequest {s : State} {r : RawRequest} {i : Instr} (hrun : running s = true) (hidle : s.txn = none)
    (hdec : decode s.platform r = .ok i) : step (placeRequest r s) = exec i s := by
  have hstep : step (placeRequest r s) = hostPerform (.request r) s := step_host hrun hidle rfl rfl
  rw [hstep, hostPerform_request_ok hdec]

/-- What `decodeTableWord` names is what every platform with MRPS_BYTE_ORDER LE decodes from the word. -/
theorem decode_of_decodeTableWord {p : Platform} {nbits w : Nat} {i : Instr} (hle : p.mrpsByteOrder = .LE)
    (h : decodeTableWord nbits w = some i) : decode p (tableRequest nbits w) = .ok i := by
  have horder : p.mrpsByteOrder = resetPlatform.mrpsByteOrder := hle
  unfold decodeTableWord at h
  rw [decode_tableRequest horder]
  cases hd : decode resetPlatform (tableRequest nbits w) with
  | ok j => simpa [hd, Except.toOption] using h
  | error e => simp [hd, Except.toOption] at h

/-- Settles O47: `step_host` at the head of the queue, once for each answer of the decoder, and `step_placeRequest` for
the request of a table word. -/
theorem stepPerformsTheDecodedRequest : Obligations.StepPerformsTheDecodedRequest := by
  refine ⟨fun s r rest hrun hidle hturn hq => ⟨fun i hdec => ?_, fun reason hdec => ?_⟩,
    fun s nbits w i hrun hidle => ⟨fun hdec => ?_, fun hle hword => ?_⟩⟩
  · rw [step_host hrun hidle hturn hq, hostPerform_request_ok (by simpa using hdec)]
  · rw [step_host hrun hidle hturn hq, hostPerform_request_error (by simpa using hdec)]
    rfl
  · exact step_placeRequest hrun hidle hdec
  · exact step_placeRequest hrun hidle (decode_of_decodeTableWord hle hword)

end Sys2Proof.Machine

/-! PROOFS for 10_state.md: what the state is after reset (O12, O14), what each step keeps of it (O36, O50, O52, O54,
O58), and the invariant (O56). -/

namespace Sys2Proof

/-! ### What the decoder admits is well formed (R78, R79) -/

theorem bind_eq_ok_iff {ε α β : Type} {x : Except ε α} {f : α → Except ε β} {b : β} :
    x >>= f = .ok b ↔ ∃ a, x = .ok a ∧ f a = .ok b := by
  cases x <;> simp [bind, Except.bind]

theorem pure_eq_ok_iff {ε α : Type} {a b : α} : (pure a : Except ε α) = .ok b ↔ a = b := by
  simp [pure, Except.pure]

theorem paramField_eq_ok_iff {w v x : Nat} : paramField w v = .ok x ↔ x = v ∧ fits w v = true := by
  refine ⟨paramField_eq_ok, ?_⟩
  rintro ⟨rfl, hv⟩
  exact paramField_fits hv

/-- Only the long writes have an operand of a parametric width. -/
theorem decodeWrite_wellFormed {p : Platform} {cmd operands : List Nat} {i : Instr}
    (h : decodeWrite p cmd operands = .ok i) : wellFormed p i = true := by
  unfold decodeWrite at h
  split at h
  · cases h
  split at h
  · cases h
  split at h <;> simp only [bind_eq_ok_iff, pure_eq_ok_iff, paramField_eq_ok_iff, Except.ok.injEq, reduceCtorEq] at h
  case h_3 | h_7 =>
    obtain ⟨_, -, _, ⟨rfl, haddr⟩, rfl⟩ := h
    exact haddr
  case h_1 =>
    obtain ⟨_, -, rfl⟩ := h
    rfl
  case h_2 | h_8 =>
    obtain ⟨_, -, _, -, rfl⟩ := h
    rfl
  case h_4 | h_5 | h_6 =>
    subst h
    rfl

theorem decodeRead_wellFormed {p : Platform} {cmd operands : List Nat} {i : Instr}
    (h : decodeRead p cmd operands = .ok i) : wellFormed p i = true := by
  unfold decodeRead at h
  split at h
  · cases h
  split at h
  · cases h
  split at h <;> simp only [bind_eq_ok_iff, pure_eq_ok_iff, paramField_eq_ok_iff, reduceCtorEq] at h
  case h_1 | h_3 =>
    obtain ⟨_, -, _, ⟨rfl, haddr⟩, rfl⟩ := h
    exact haddr
  case h_2 =>
    obtain ⟨_, ⟨rfl, haddr⟩, rfl⟩ := h
    exact haddr
  case h_4 =>
    obtain ⟨_, -, _, -, _, ⟨rfl, haddr⟩, rfl⟩ := h
    exact haddr

theorem decodeCfg_fits {p : Platform} {fields : List Nat} {c : CtrlConfig} (h : decodeCfg p fields = .ok c) :
    cfgFits p c = true := by
  unfold decodeCfg at h
  split at h
  · simp only [bind_eq_ok_iff, pure_eq_ok_iff, paramField_eq_ok_iff] at h
    obtain ⟨_, ⟨rfl, haw⟩, _, ⟨rfl, hah⟩, _, ⟨rfl, hhbp⟩, _, ⟨rfl, hhfp⟩, _, ⟨rfl, hvbp⟩, _, ⟨rfl, hvfp⟩,
      _, ⟨rfl, hhsw⟩, _, ⟨rfl, hvsw⟩, _, -, _, -, _, -, _, -, rfl⟩ := h
    simp only [cfgFits, haw, hah, hhbp, hhfp, hvbp, hvfp, hhsw, hvsw, Bool.and_self]
  · cases h

theorem decodeControl_wellFormed {p : Platform} {k : RequestKind} {cmd operands : List Nat} {i : Instr}
    (h : decodeControl p k cmd operands = .ok i) : wellFormed p i = true := by
  unfold decodeControl at h
  split at h <;> simp only [bind_eq_ok_iff, pure_eq_ok_iff, paramField_eq_ok_iff, Except.ok.injEq, reduceCtorEq] at h
  case h_1 =>
    obtain ⟨_, ⟨rfl, hptr⟩, _, -, _, hword, rfl⟩ := h
    simp only [wellFormed, hptr, (wordField_eq_ok hword).2, Bool.and_self]
  case h_2 =>
    obtain ⟨_, ⟨rfl, hptr⟩, _, hword, rfl⟩ := h
    simp only [wellFormed, hptr, (wordField_eq_ok hword).2, Bool.and_self]
  case h_4 =>
    obtain ⟨_, ⟨rfl, hwidth⟩, rfl⟩ := h
    exact hwidth
  case h_5 =>
    obtain ⟨_, hcfg, rfl⟩ := h
    exact decodeCfg_fits hcfg
  case h_3 | h_6 =>
    subst h
    rfl

/-- Every request that the interface admits may be spelled on the platform (R79 points 4 and 5). -/
theorem decode_wellFormed {p : Platform} {r : RawRequest} {i : Instr} (h : decode p r = .ok i) :
    wellFormed p i = true := by
  unfold decode at h
  split at h
  · cases h
  · exact decodeWrite_wellFormed h
  · exact decodeRead_wellFormed h
  · exact decodeControl_wellFormed h

/-! ### The frame checker reads back what the encoder sends (R74, R95, R108) -/

/-- The two bytes of a size on the wire, joined in the same order, are the size. -/
theorem orderBytes_joinBytes (o : ByteOrder) (size : BitVec 16) :
    ∃ first second : Byte, orderBytes o (lo8 size) (hi8 size) = [first, second] ∧ joinBytes o first second = size := by
  obtain ⟨first, second, hfields, hjoin⟩ := joinBytes_sizeFields o size
  refine ⟨first, second, ?_, hjoin⟩
  rw [sizeFields_eq] at hfields
  exact List.map_injective_iff.mpr (fun _ _ => BitVec.eq_of_toNat_eq) hfields

/-- The bytes a command takes from outside are as many as EXT_ARGS_LEN says (R70). -/
def ExternalArgsOK (p : Platform) : WriteCommand → Prop
  | .genericShortP1 x => x.length = p.extArgsP1
  | .genericShortP2 x => x.length = p.extArgsP2
  | _ => True

theorem decodeFrame_encW {p : Platform} {c : WriteCommand} (h : ExternalArgsOK p c) :
    decodeFrame p (encW p.mrpsByteOrder c) = .ok (.write c) := by
  cases c with
  | dcsShortP0 | dcsShortP1 | dcsLongWrite | genericShortP0 | genericLongWrite => rfl
  | genericShortP1 | genericShortP2 => exact if_pos h
  | setMaximumReturnPacketSize size =>
    obtain ⟨first, second, hbytes, hjoin⟩ := orderBytes_joinBytes p.mrpsByteOrder size
    simp only [encW, hbytes]
    rw [← hjoin]
    rfl

theorem decodeFrame_encR (p : Platform) (c : ReadCommand) : decodeFrame p (encR c) = .ok (.read c) := by
  cases c <;> rfl

end Sys2Proof

namespace Sys2Proof.Machine

/-! ### What a request that goes on has done, with the checks it passed -/

/-- What each admitted request does when it goes on, as `RequestEffect` but with the checks it has passed: a DSI request
is held, or puts in flight a frame that decodes to a command (R85, R101); a layer request writes its own layer (R118,
R119, R121); `init` replaces the configuration (R135); `is_swap_pending` and `clock` answer the host (R120, R138). -/
inductive Performed (s : State) : Instr → State → Prop where
  | held {i} (hbusy : s.txn ≠ none) : Performed s i s
  | wrote {i frame c} (hidle : s.txn = none) (hframe : decodeFrame s.platform frame = .ok (.write c)) :
      Performed s i (startTxn (.write frame) s)
  | drewAndWrote {i frame c} (n : Nat) (hidle : s.txn = none) (hframe : decodeFrame s.platform frame = .ok (.write c)) :
      Performed s i (startTxn (.write frame) (afterDraw n s))
  | read {i a n} (c : ReadCommand) (hidle : s.txn = none) (haddr : a < 2 ^ s.platform.addrBits)
      (hlen : readLenOK s.platform (readVariantOfCommand c) n = true) (hacc : accessOK s.platform a n = true)
      (hfree : FreeOfOwned s a n) : Performed s i (startTxn (.read (encR c) n a) s)
  | enabled {i p pf word w l c} (hl : s.layers[i]? = some l) (hoff : l.mode ≠ .enabled) (hcfg : s.cfg = some c)
      (hword : pixelWordOf word = some w) (hp : p < 2 ^ s.platform.addrBits) (halign : aligned s.platform w p = true)
      (hacc : accessOK s.platform p (bufferSize c.aw c.ah pf) = true) :
      Performed s (.layerEnable i p pf word) (setLayer i (layerEnabled p pf w c.aw) s)
  | swapped {i p word w l foot} (hl : s.layers[i]? = some l) (hon : l.mode ≠ .disabled) (hclear : l.swp = false)
      (hword : pixelWordOf word = some w) (hp : p < 2 ^ s.platform.addrBits) (halign : aligned s.platform w p = true)
      (hfoot : footprint s.cfg l (some p) = some foot) (hacc : accessOK s.platform foot.base foot.len = true) :
      Performed s (.layerSwapFramebuffer i p word) (setLayer i (layerSwapped p w l) s)
  | pitched {i width l c feet} (hl : s.layers[i]? = some l) (hon : l.mode ≠ .disabled) (hcfg : s.cfg = some c)
      (haw : c.aw ≤ width) (hwidth : width < 2 ^ s.platform.pitchBits)
      (hfeet : pitchFootprints s.cfg (layerPitched width l) = some feet)
      (hacc : feet.all (fun f => accessOK s.platform f.base f.len) = true) :
      Performed s (.layerResizeBufferPitch i width) (setLayer i (layerPitched width l) s)
  | polled {i l} (hl : s.layers[i]? = some l) :
      Performed s (.layerIsSwapPending i) (deliver (.swapPending l.swp) s)
  | initialised {c} (hoff : ∀ l ∈ s.layers, l.mode ≠ .enabled) (haw : c.aw ≠ 0) (hah : c.ah ≠ 0)
      (hfits : cfgFits s.platform c = true) : Performed s (.ctrlInit c) (setCfg c s)
  | clocked {c} (hcfg : s.cfg = some c) : Performed s .ctrlClock (deliver (.clock (Config.pixelClockHz c)) s)

theorem issueWrite_performed {i : Instr} {c : WriteCommand} {s t : State} (h : issueWrite c s = .next t)
    (hext : ExternalArgsOK s.platform c) : Performed s i t := by
  obtain ⟨hbusy, rfl⟩ | ⟨hidle, rfl⟩ := issueWrite_next h
  · exact .held hbusy
  · exact .wrote hidle (decodeFrame_encW hext)

theorem issueLongWrite_performed {i : Instr} {mk : List Byte → WriteCommand} {a n : Nat} {s t : State}
    (h : issueLongWrite i mk a n s = .next t) (hext : ∀ data, ExternalArgsOK s.platform (mk data)) :
    Performed s i t := by
  obtain ⟨hbusy, rfl⟩ | ⟨hidle, -, -, -, rfl⟩ := issueLongWrite_next h
  · exact .held hbusy
  · exact .wrote hidle (decodeFrame_encW (hext _))

theorem issueExternalWrite_performed {i : Instr} {mk : List Byte → WriteCommand} {n : Nat} {s t : State}
    (h : issueExternalWrite mk n s = .next t) (hext : ∀ x, x.length = n → ExternalArgsOK s.platform (mk x)) :
    Performed s i t := by
  obtain ⟨hbusy, rfl⟩ | ⟨hidle, rfl⟩ := issueExternalWrite_next h
  · exact .held hbusy
  · exact .drewAndWrote n hidle (decodeFrame_encW (hext _ (drawnBytes_length n s)))

theorem issueRead_performed {i : Instr} {c : ReadCommand} {a n : Nat} {s t : State}
    (haddr : fits s.platform.addrBits a = true) (h : issueRead i c a n s = .next t) : Performed s i t := by
  obtain ⟨hbusy, rfl⟩ | ⟨hidle, hlen, hacc, hmeets, rfl⟩ := issueRead_next h
  · exact .held hbusy
  · exact .read c hidle ((fits_iff _ _).mp haddr) hlen hacc ((meetsOwned_eq_false_iff _ _ _).mp hmeets)

theorem exec_performed {i : Instr} {s t : State} (hwf : wellFormed s.platform i = true) (h : exec i s = .next t) :
    Performed s i t := by
  cases i with
  | writeDcsShortP0 | writeDcsShortP1 | writeGenericShortP0 | writeSetMaximumReturnPacketSize =>
    exact issueWrite_performed h trivial
  | writeDcsLongWrite | writeGenericLongWrite => exact issueLongWrite_performed h (fun _ => trivial)
  | writeGenericShortP1 | writeGenericShortP2 => exact issueExternalWrite_performed h (fun _ hx => hx)
  | readDcsShort | readGenericShortP0 | readGenericShortP1 | readGenericShortP2 => exact issueRead_performed hwf h
  | layerEnable i p =>
    obtain ⟨w, l, c, hword, hl, hcfg, hoff, halign, hacc, rfl⟩ := execLayerEnable_next h
    obtain ⟨hp, -⟩ : p < 2 ^ s.platform.addrBits ∧ _ := by simpa [wellFormed] using hwf
    exact .enabled hl hoff hcfg hword hp halign hacc
  | layerSwapFramebuffer i p =>
    obtain ⟨w, l, foot, hword, hl, hon, hclear, halign, hfoot, hacc, rfl⟩ := execLayerSwapFramebuffer_next h
    obtain ⟨hp, -⟩ : p < 2 ^ s.platform.addrBits ∧ _ := by simpa [wellFormed] using hwf
    exact .swapped hl hon hclear hword hp halign hfoot hacc
  | layerIsSwapPending =>
    obtain ⟨_, hl, rfl⟩ := execLayerIsSwapPending_next h
    exact .polled hl
  | layerResizeBufferPitch =>
    obtain ⟨l, c, feet, hl, hon, hcfg, haw, hfeet, hacc, rfl⟩ := execLayerResizeBufferPitch_next h
    exact .pitched hl hon hcfg haw ((fits_iff _ _).mp hwf) hfeet hacc
  | ctrlInit =>
    obtain ⟨hoff, haw, hah, rfl⟩ := execCtrlInit_next h
    exact .initialised hoff haw hah hwf
  | ctrlClock =>
    obtain ⟨_, hcfg, rfl⟩ := execCtrlClock_next h
    exact .clocked hcfg

/-! ### What an agent's turn that goes on has done -/

/-- The turns of the transport (R86, R102). -/
def IsCompletion (a : Turn) : Prop := a = .completeOk ∨ ∃ e k, a = .completeErr e k

/-- Every way an agent's turn can go on: it passes, the host performs the request, the store, the load or the poll at
the head of its queue, the transport completes what is in flight, or the vertical blank reloads the layers (R8). -/
inductive TurnEffect (a : Turn) (s : State) : State → Prop where
  | passed : TurnEffect a s s
  | requested {r rest i t} (hturn : a = .host) (hidle : s.txn = none) (hq : s.hostQueue = .request r :: rest)
      (hdec : decode s.platform r = .ok i) (hdone : Performed { s with hostQueue := rest } i t) : TurnEffect a s t
  | stored {addr bs rest} (hturn : a = .host) (hq : s.hostQueue = .store addr bs :: rest)
      (hfree : FreeOfOwned s addr bs.length) (hacc : accessOK s.platform addr bs.length = true) :
      TurnEffect a s { s with hostQueue := rest, mem := memSetBytes s.mem addr bs }
  | answered (r : HostResult) (rest : List HostAction) (hturn : a = .host) :
      TurnEffect a s (deliver r { s with hostQueue := rest })
  | completedWrite {frame} (r : TxResult) {k} (hturn : IsCompletion a) (htxn : s.txn = some (.write frame))
      (hwhole : r = .ok → k = none) :
      TurnEffect a s (endTxn (deliver (.write r) (emit ⟨.W, framePrefix k frame, r = .ok⟩ s)))
  | completedRead {frame n addr} (r : TxResult) {k} (hturn : IsCompletion a)
      (htxn : s.txn = some (.read frame n addr)) (hacc : accessOK s.platform addr n = true)
      (hwhole : r = .ok → k = none) :
      TurnEffect a s (endTxn (deliver (.read r) (emit ⟨.R, framePrefix k frame, r = .ok⟩
        { afterDraw n s with mem := memSetBytes s.mem addr (drawnBytes n s) })))
  | reloaded (hturn : a = .vblank) (hcfg : s.cfg ≠ none) :
      TurnEffect a s { s with layers := s.layers.map layerReloaded }

theorem hostTurn_effect {s t : State} (h : hostTurn s = .next t) : TurnEffect .host s t := by
  obtain ⟨-, rfl⟩ | ⟨-, rfl⟩ | ⟨hidle, act, rest, hq, hact⟩ := hostTurn_next h
  · exact .passed
  · exact .passed
  · obtain ⟨r, i, rfl, hdec, hexec⟩ | ⟨_, _, rfl, hstore⟩ | ⟨_, _, -, hload⟩ | ⟨_, -, hpoll⟩ := hact
    · exact .requested rfl hidle hq hdec (exec_performed (decode_wellFormed hdec) hexec)
    · obtain ⟨hmeets, hacc, rfl⟩ := hostStore_next hstore
      exact .stored rfl hq ((meetsOwned_eq_false_iff _ _ _).mp hmeets) hacc
    · obtain ⟨-, -, rfl⟩ := hostLoad_next hload
      exact .answered _ _ rfl
    · obtain ⟨_, -, ⟨-, rfl⟩ | ⟨-, rfl⟩⟩ := hostPoll_next hpoll
      · exact .answered _ (.pollSwap _ :: rest) rfl
      · exact .answered _ _ rfl

theorem complete_effect {a : Turn} {r : TxResult} {k : Option Nat} {s t : State}
    (h : complete r k s = .next t) (hturn : IsCompletion a) (hwhole : r = .ok → k = none) : TurnEffect a s t := by
  obtain ⟨-, rfl⟩ | ⟨frame, htxn, rfl⟩ | ⟨frame, n, addr, htxn, hacc, rfl⟩ := complete_next h
  · exact .passed
  · exact .completedWrite r hturn htxn hwhole
  · exact .completedRead r hturn htxn hacc hwhole

theorem takeTurn_effect {a : Turn} {s t : State} (h : takeTurn a s = .next t) : TurnEffect a s t := by
  cases a with
  | host => exact hostTurn_effect h
  | completeOk => exact complete_effect h (.inl rfl) (fun _ => rfl)
  | completeErr e k => exact complete_effect h (.inr ⟨e, k, rfl⟩) nofun
  | vblank =>
    obtain ⟨-, rfl⟩ | ⟨hcfg, rfl⟩ := vblank_next h
    · exact .passed
    · exact .reloaded rfl hcfg
  | scan =>
    obtain rfl := scanRead_next h
    exact .passed

@[simp] theorem afterTurn_cfg (s : State) : (afterTurn s).cfg = s.cfg := by
  unfold afterTurn; split <;> rfl

@[simp] theorem afterTurn_wire (s : State) : (afterTurn s).wire = s.wire := by
  unfold afterTurn; split <;> rfl

theorem step_effect {s t : State} (h : step s = .next t) : TurnEffect (nextTurn s) (afterTurn s) t := by
  obtain ⟨-, hturn⟩ := step_next h
  exact takeTurn_effect hturn

/-! ### The state after reset (R42, R162) -/

/-- Settles O12: every layer is a copy of the reset registers. -/
theorem resetValues : Obligations.ResetValues := by
  refine fun p extra => ⟨rfl, rfl, rfl, rfl, rfl, List.length_replicate, fun l hl => ?_⟩
  obtain rfl := List.eq_of_mem_replicate hl
  exact ⟨rfl, rfl, rfl, rfl, rfl, rfl, rfl⟩

/-- Settles O14: memory, the wire and the encoder are empty, and every layer is Disabled with nothing pending. -/
theorem resetMeetsInvariant : Obligations.ResetMeetsInvariant := by
  refine fun p extra => ⟨⟨rfl, nofun⟩, ⟨nofun, fun l hl => ?_⟩, trivial, nofun⟩
  obtain rfl := List.eq_of_mem_replicate hl
  exact ⟨rfl, rfl, rfl⟩

/-! ### A layer request writes its own layer alone (R44) -/

/-- What a layer request may change: the registers of layer `i`, and the results handed to the host. -/
def OnlyLayerChanges (i : Nat) (s t : State) : Prop :=
  (∀ j, j ≠ i → t.layers[j]? = s.layers[j]?) ∧ t.cfg = s.cfg ∧ t.txn = s.txn ∧ t.wire = s.wire ∧ t.mem = s.mem ∧
    t.faults = s.faults ∧ t.refused = s.refused ∧ t.platform = s.platform

theorem setLayer_onlyLayerChanges (i : Nat) (l : LayerRegs) (s : State) : OnlyLayerChanges i s (setLayer i l s) :=
  ⟨fun _ hj => List.getElem?_set_ne hj.symm, rfl, rfl, rfl, rfl, rfl, rfl, rfl⟩

theorem deliver_onlyLayerChanges (i : Nat) (r : HostResult) (s : State) : OnlyLayerChanges i s (deliver r s) :=
  ⟨fun _ _ => rfl, rfl, rfl, rfl, rfl, rfl, rfl, rfl⟩

/-- Settles O36: three of the requests write their layer with `setLayer`, and `is_swap_pending` writes none. -/
theorem layersAreIndependent : Obligations.LayersAreIndependent := by
  intro ins i s t hins h
  show OnlyLayerChanges i s t
  obtain ⟨p, pf, word, rfl⟩ | ⟨p, word, rfl⟩ | rfl | ⟨width, rfl⟩ := hins
  · obtain ⟨_, _, _, -, -, -, -, -, -, rfl⟩ := execLayerEnable_next h
    exact setLayer_onlyLayerChanges _ _ _
  · obtain ⟨_, _, _, -, -, -, -, -, -, -, rfl⟩ := execLayerSwapFramebuffer_next h
    exact setLayer_onlyLayerChanges _ _ _
  · obtain ⟨_, -, rfl⟩ := execLayerIsSwapPending_next h
    exact deliver_onlyLayerChanges _ _ _
  · obtain ⟨_, _, _, -, -, -, -, -, -, rfl⟩ := execLayerResizeBufferPitch_next h
    exact setLayer_onlyLayerChanges _ _ _

/-! ### Only `init` writes the configuration (R20) -/

theorem Performed.cfg_eq {s t : State} {i : Instr} (h : Performed s i t) :
    t.cfg = s.cfg ∨ ∃ c, i = .ctrlInit c ∧ t.cfg = some c := by
  cases h with
  | @initialised c => exact .inr ⟨c, rfl, rfl⟩
  | held | wrote | drewAndWrote | read | enabled | swapped | pitched | polled | clocked => exact .inl rfl

/-- Settles O52: of all turns a host's request alone can change the configuration, and of all requests `init`. -/
theorem onlyInitWritesTheConfiguration : Obligations.OnlyInitWritesTheConfiguration := by
  intro s t h hne
  rw [← afterTurn_cfg s] at hne
  cases step_effect h with
  | requested hturn hidle hq hdec hdone =>
    obtain hsame | ⟨c, rfl, hc⟩ := hdone.cfg_eq
    · exact absurd hsame hne
    · exact ⟨hturn, _, _, c, by simpa using hq, by simpa using hdec, hc⟩
  | passed | stored | answered | completedWrite | completedRead | reloaded => exact absurd rfl hne

/-! ### Only `swap_framebuffer` sets SwapPending (R38, R120) -/

/-- The registers of a layer after one layer is written. -/
theorem getElem?_setLayer {s : State} {i j : Nat} {l l' : LayerRegs} (h : (setLayer i l s).layers[j]? = some l') :
    s.layers[j]? = some l' ∨ (i = j ∧ l' = l) := by
  rw [setLayer_layers, List.getElem?_set] at h
  split at h
  · split at h
    · exact .inr ⟨‹_›, (Option.some.inj h).symm⟩
    · cases h
  · exact .inl h

theorem layerReloaded_swp_of_clear {l : LayerRegs} (h : l.swp = false) : (layerReloaded l).swp = false := by
  rw [layerReloaded_of_not_reloads l (by simp [reloads, h])]
  exact h

/-- A layer whose flag rises has not kept its registers. -/
theorem ne_some_of_rise {x : Option LayerRegs} {l l' : LayerRegs} (hl : x = some l) (hclear : l.swp = false)
    (hset : l'.swp = true) : x ≠ some l' := by
  rintro rfl
  obtain rfl := Option.some.inj hl
  simp [hclear] at hset

/-- A request by which SwapPending of layer `j` rises is `swap_framebuffer` of that layer. -/
theorem Performed.swap_of_rise {s t : State} {i : Instr} {j : Nat} {l l' : LayerRegs} (h : Performed s i t)
    (hl : s.layers[j]? = some l) (hl' : t.layers[j]? = some l') (hclear : l.swp = false) (hset : l'.swp = true) :
    ∃ p word, i = .layerSwapFramebuffer j p word := by
  have hsame := ne_some_of_rise hl hclear hset
  cases h with
  | enabled =>
    obtain hother | ⟨-, rfl⟩ := getElem?_setLayer hl'
    · exact absurd hother hsame
    · simp at hset
  | swapped =>
    obtain hother | ⟨rfl, -⟩ := getElem?_setLayer hl'
    · exact absurd hother hsame
    · exact ⟨_, _, rfl⟩
  | pitched hmine =>
    obtain hother | ⟨rfl, rfl⟩ := getElem?_setLayer hl'
    · exact absurd hother hsame
    · obtain rfl := Option.some.inj (hl.symm.trans hmine)
      simp [hclear] at hset
  | held | wrote | drewAndWrote | read | polled | initialised | clocked => exact absurd hl' hsame

/-- Settles O50: the vertical blank only clears flags, no other agent touches them, and of the host's requests only
`swap_framebuffer` sets one. -/
theorem onlySwapSetsSwapPending : Obligations.OnlySwapSetsSwapPending := by
  intro s t i l l' h hl hl' hclear hset
  rw [← afterTurn_layers s] at hl
  have hsame := ne_some_of_rise hl hclear hset
  cases step_effect h with
  | requested hturn hidle hq hdec hdone =>
    obtain ⟨p, word, rfl⟩ := hdone.swap_of_rise hl hl' hclear hset
    exact ⟨hturn, _, _, p, word, by simpa using hq, by simpa using hdec⟩
  | reloaded =>
    rw [List.getElem?_map, hl] at hl'
    obtain rfl := Option.some.inj hl'
    simp [layerReloaded_swp_of_clear hclear] at hset
  | passed | stored | answered | completedWrite | completedRead => exact absurd hl' hsame

/-! ### The wire log grows only at a completion (R25, R98, R100) -/

theorem Performed.wire_eq {s t : State} {i : Instr} (h : Performed s i t) : t.wire = s.wire := by
  cases h <;> rfl

/-- Settles O54: the two completions append one entry and end the transaction, every other turn leaves the wire. -/
theorem wireLogGrowsOnlyAtCompletion : Obligations.WireLogGrowsOnlyAtCompletion := by
  intro s t h
  rw [← afterTurn_wire s, ← afterTurn_txn s]
  cases step_effect h with
  | requested hturn hidle hq hdec hdone => exact .inl hdone.wire_eq
  | completedWrite r hturn htxn | completedRead r hturn htxn =>
    exact .inr ⟨htxn ▸ Option.some_ne_none _, rfl, hturn, _, rfl⟩
  | passed | stored | answered | reloaded => exact .inl rfl

/-! ### Host memory keeps its canonical form (R46) -/

theorem memSetBytes_memOK {s t : State} {a : Nat} {bs : List Byte} (h : MemOK s)
    (hacc : accessOK s.platform a bs.length = true) (hmem : t.mem = memSetBytes s.mem a bs)
    (hplat : t.platform = s.platform) : MemOK t := by
  obtain ⟨hwf, hlt⟩ := h
  obtain ⟨hend, -⟩ := (accessOK_iff _ _ _).mp hacc
  unfold MemOK
  rw [hmem, hplat]
  refine ⟨memSetBytes_wf a bs hwf, fun c hc => ?_⟩
  obtain hbefore | ⟨-, hin⟩ := mem_memSetBytes hc
  · exact hlt c hbefore
  · omega

/-! ### The registers of a layer (R45) -/

/-- A buffer of a layer with these registers is at an address and exists (R116). -/
def BufferOK (p : Platform) (c : CtrlConfig) (pf : PixelFormat) (pitch a : Nat) : Prop :=
  a < 2 ^ p.addrBits ∧ accessOK p a (bufferSize pitch c.ah pf) = true

/-- What R45 asks of an Enabled layer, given the values its registers hold. -/
structure EnabledOK (p : Platform) (cfg : Option CtrlConfig) (l : LayerRegs) (c : CtrlConfig) (pf : PixelFormat)
    (w : PixelWord) (shown pitch : Nat) : Prop where
  cfg_eq : cfg = some c
  pf_eq : l.pf = some pf
  word_eq : l.word = some w
  cfba_eq : l.cfba = some shown
  pitch_eq : l.pitch = some pitch
  aw_le : c.aw ≤ pitch
  pitch_fits : p.cfgBits ≤ p.pitchBits → pitch < 2 ^ p.pitchBits
  shown_ok : BufferOK p c pf pitch shown
  swp_iff : l.swp = true ↔ l.sfba ≠ none
  pending_ok : ∀ pending, l.sfba = some pending → aligned p w pending = true ∧ BufferOK p c pf pitch pending

theorem layerOK_of_disabled {p : Platform} {cfg cfg' : Option CtrlConfig} {l : LayerRegs} (hoff : l.mode = .disabled)
    (h : LayerOK p cfg l) : LayerOK p cfg' l := by
  simpa [LayerOK, hoff] using h

theorem layerOK_enabled_iff {p : Platform} {cfg : Option CtrlConfig} {l : LayerRegs} (hon : l.mode = .enabled) :
    LayerOK p cfg l ↔ ∃ c pf w shown pitch, EnabledOK p cfg l c pf w shown pitch := by
  simp only [LayerOK, hon]
  constructor
  · rintro ⟨c, pf, w, shown, pitch, hcfg, hpf, hw, hshown, hpitch, haw, hfits, hlt, hacc, hswp, hpend⟩
    refine ⟨c, pf, w, shown, pitch, hcfg, hpf, hw, hshown, hpitch, haw, hfits, ⟨hlt, hacc⟩, hswp, fun b hb => ?_⟩
    obtain ⟨hblt, hbalign, hbacc⟩ := hpend b hb
    exact ⟨hbalign, hblt, hbacc⟩
  · rintro ⟨c, pf, w, shown, pitch, hcfg, hpf, hw, hshown, hpitch, haw, hfits, ⟨hlt, hacc⟩, hswp, hpend⟩
    refine ⟨c, pf, w, shown, pitch, hcfg, hpf, hw, hshown, hpitch, haw, hfits, hlt, hacc, hswp, fun b hb => ?_⟩
    obtain ⟨hbalign, hblt, hbacc⟩ := hpend b hb
    exact ⟨hblt, hbalign, hbacc⟩

theorem enabled_of_ne_disabled {m : LayerMode} (h : m ≠ .disabled) : m = .enabled := by
  cases m with
  | disabled => exact absurd rfl h
  | enabled => rfl

theorem disabled_of_ne_enabled {m : LayerMode} (h : m ≠ .enabled) : m = .disabled := by
  cases m with
  | disabled => rfl
  | enabled => exact absurd rfl h

/-- A footprint whose registers hold values (R116). -/
theorem footprint_of_values {cfg : Option CtrlConfig} {l : LayerRegs} {c : CtrlConfig} {pf : PixelFormat} {pitch : Nat}
    (hcfg : cfg = some c) (hpitch : l.pitch = some pitch) (hpf : l.pf = some pf) (a : Nat) :
    footprint cfg l (some a) = some ⟨a, bufferSize pitch c.ah pf⟩ := by
  simp [footprint, hcfg, hpitch, hpf]

theorem EnabledOK.footprint_eq {p : Platform} {cfg : Option CtrlConfig} {l : LayerRegs} {c : CtrlConfig}
    {pf : PixelFormat} {w : PixelWord} {shown pitch : Nat} (h : EnabledOK p cfg l c pf w shown pitch) (a : Nat) :
    footprint cfg l (some a) = some ⟨a, bufferSize pitch c.ah pf⟩ :=
  footprint_of_values h.cfg_eq h.pitch_eq h.pf_eq a

/-- The footprints that `resize_buffer_pitch` checks: the displayed buffer's, and the pending one's while a swap is
pending. -/
theorem mem_pitchFootprints {cfg : Option CtrlConfig} {l : LayerRegs} {feet : List Range}
    (h : pitchFootprints cfg l = some feet) :
    (∀ f, footprint cfg l l.cfba = some f → f ∈ feet) ∧
      (l.swp = true → ∀ f, footprint cfg l l.sfba = some f → f ∈ feet) := by
  unfold pitchFootprints at h
  repeat' split at h
  all_goals simp at h <;> subst h <;> simp_all

/-! ### Each write to a layer keeps `LayerOK` (R118, R119, R121, R126) -/

theorem fits_aw {p : Platform} {c : CtrlConfig} (h : cfgFits p c = true) : fits p.cfgBits c.aw = true := by
  simp only [cfgFits, Bool.and_eq_true] at h
  simp only [h]

/-- The pitch `enable` sets is the active width, which fits CFG_BITS (log 22). -/
theorem layerEnabled_ok {p : Platform} {c : CtrlConfig} {a : Nat} {pf : PixelFormat} {w : PixelWord}
    (haw : fits p.cfgBits c.aw = true) (ha : a < 2 ^ p.addrBits)
    (hacc : accessOK p a (bufferSize c.aw c.ah pf) = true) : LayerOK p (some c) (layerEnabled a pf w c.aw) := by
  refine (layerOK_enabled_iff rfl).mpr ⟨c, pf, w, a, c.aw, rfl, rfl, rfl, rfl, rfl, le_rfl, fun hbits => ?_, ⟨ha, hacc⟩,
    by simp, by simp⟩
  exact ((fits_iff _ _).mp haw).trans_le (Nat.pow_le_pow_right (by decide) hbits)

theorem layerSwapped_ok {p : Platform} {cfg : Option CtrlConfig} {l : LayerRegs} {a : Nat} {w : PixelWord}
    {foot : Range} (hl : LayerOK p cfg l) (hon : l.mode ≠ .disabled) (ha : a < 2 ^ p.addrBits)
    (halign : aligned p w a = true) (hfoot : footprint cfg l (some a) = some foot)
    (hacc : accessOK p foot.base foot.len = true) : LayerOK p cfg (layerSwapped a w l) := by
  have hmode := enabled_of_ne_disabled hon
  obtain ⟨c, pf, _, shown, pitch, ok⟩ := (layerOK_enabled_iff hmode).mp hl
  obtain rfl := Option.some.inj ((ok.footprint_eq a).symm.trans hfoot)
  refine (layerOK_enabled_iff (l := layerSwapped a w l) hmode).mpr ⟨c, pf, w, shown, pitch, { ok with
    word_eq := rfl, swp_iff := by simp, pending_ok := fun b hb => ?_ }⟩
  obtain rfl := Option.some.inj hb
  exact ⟨halign, ha, hacc⟩

theorem layerPitched_ok {p : Platform} {cfg : Option CtrlConfig} {c : CtrlConfig} {l : LayerRegs} {width : Nat}
    {feet : List Range} (hl : LayerOK p cfg l) (hon : l.mode ≠ .disabled) (hcfg : cfg = some c) (haw : c.aw ≤ width)
    (hwidth : width < 2 ^ p.pitchBits) (hfeet : pitchFootprints cfg (layerPitched width l) = some feet)
    (hacc : feet.all (fun f => accessOK p f.base f.len) = true) : LayerOK p cfg (layerPitched width l) := by
  have hmode := enabled_of_ne_disabled hon
  obtain ⟨d, pf, w, shown, _, ok⟩ := (layerOK_enabled_iff hmode).mp hl
  obtain rfl : c = d := Option.some.inj (hcfg.symm.trans ok.cfg_eq)
  have hfoot (a : Nat) : footprint cfg (layerPitched width l) (some a) = some ⟨a, bufferSize width c.ah pf⟩ :=
    footprint_of_values (l := layerPitched width l) hcfg rfl ok.pf_eq a
  obtain ⟨hshown, hpending⟩ := mem_pitchFootprints hfeet
  rw [List.all_eq_true] at hacc
  refine (layerOK_enabled_iff (l := layerPitched width l) hmode).mpr ⟨c, pf, w, shown, width, { ok with
    pitch_eq := rfl, aw_le := haw, pitch_fits := fun _ => hwidth, shown_ok := ⟨ok.shown_ok.1, ?_⟩,
    pending_ok := fun b (hb : l.sfba = some b) => ?_ }⟩
  · exact hacc _ (hshown _ (by rw [layerPitched_cfba, ok.cfba_eq, hfoot]))
  · obtain ⟨halign, hlt, -⟩ := ok.pending_ok b hb
    have hswp : l.swp = true := ok.swp_iff.mpr (hb ▸ Option.some_ne_none b)
    exact ⟨halign, hlt, hacc _ (hpending hswp _ (by rw [layerPitched_sfba, hb, hfoot]))⟩

theorem reloads_iff (l : LayerRegs) : reloads l = true ↔ l.mode = .enabled ∧ l.swp = true := by simp [reloads]

/-- The pending buffer, which was checked when it was posted, becomes the displayed one. -/
theorem layerReloaded_ok {p : Platform} {cfg : Option CtrlConfig} {l : LayerRegs} (hl : LayerOK p cfg l) :
    LayerOK p cfg (layerReloaded l) := by
  by_cases hr : reloads l = true
  · obtain ⟨hmode, hswp⟩ := (reloads_iff l).mp hr
    obtain ⟨c, pf, w, _, pitch, ok⟩ := (layerOK_enabled_iff hmode).mp hl
    obtain ⟨pending, hpending⟩ := Option.ne_none_iff_exists'.mp (ok.swp_iff.mp hswp)
    rw [layerReloaded_of_reloads l hr]
    refine (layerOK_enabled_iff ?_).mpr ⟨c, pf, w, pending, pitch, { ok with
      cfba_eq := hpending, shown_ok := (ok.pending_ok pending hpending).2, swp_iff := by simp, pending_ok := nofun }⟩
    exact hmode
  · rw [layerReloaded_of_not_reloads l (by simpa using hr)]
    exact hl

theorem setLayer_layersOK {s : State} {i : Nat} {l : LayerRegs} (h : LayersOK s) (hl : LayerOK s.platform s.cfg l) :
    LayersOK (setLayer i l s) := by
  obtain ⟨hcfg, hlayers⟩ := h
  refine ⟨hcfg, fun q hq => ?_⟩
  obtain hbefore | rfl := List.mem_or_eq_of_mem_set hq
  · exact hlayers q hbefore
  · exact hl

/-! ### The encoder and the wire (R24, R25) -/

theorem txnOK_of_idle {s : State} (h : s.txn = none) : TxnOK s := by simp [TxnOK, h]

theorem txnOK_write_iff {s : State} {frame : List Byte} (h : s.txn = some (.write frame)) :
    TxnOK s ↔ ∃ c, decodeFrame s.platform frame = .ok (.write c) := by simp [TxnOK, h]

theorem txnOK_read_iff {s : State} {frame : List Byte} {n a : Nat} (h : s.txn = some (.read frame n a)) :
    TxnOK s ↔ (∃ c, decodeFrame s.platform frame = .ok (.read c) ∧
      readLenOK s.platform (readVariantOfCommand c) n = true) ∧ a < 2 ^ s.platform.addrBits ∧
      accessOK s.platform a n = true ∧ FreeOfOwned s a n := by simp [TxnOK, FreeOfOwned, h]

/-- What is owned after a reload was owned before it: the displayed buffer is the one that was pending (R126). -/
theorem layerOwned_layerReloaded_subset (cfg : Option CtrlConfig) (l : LayerRegs) :
    layerOwned cfg (layerReloaded l) ⊆ layerOwned cfg l := by
  by_cases hr : reloads l = true
  · obtain ⟨hmode, hswp⟩ := (reloads_iff l).mp hr
    rw [layerReloaded_of_reloads l hr]
    simp [layerOwned, hmode, hswp, footprint]
  · rw [layerReloaded_of_not_reloads l (by simpa using hr)]
    exact List.Subset.refl _

theorem owned_of_owned_reloaded {s : State} {x : Nat}
    (h : owned { s with layers := s.layers.map layerReloaded } x = true) : owned s x = true := by
  obtain ⟨_, hl, r, hr, hx⟩ := (owned_iff_layer _ _).mp h
  obtain ⟨l, hmem, rfl⟩ := List.mem_map.mp hl
  exact (owned_iff_layer _ _).mpr ⟨l, hmem, r, layerOwned_layerReloaded_subset _ _ hr, hx⟩

/-- The encoder's invariant reads the transaction, the parameters and the owned set, which may only shrink. -/
theorem txnOK_of_owned_le {s t : State} (h : TxnOK s) (htxn : t.txn = s.txn) (hplat : t.platform = s.platform)
    (hle : ∀ x, owned t x = true → owned s x = true) : TxnOK t := by
  obtain hidle | ⟨x, hx⟩ := Option.eq_none_or_eq_some s.txn
  · exact txnOK_of_idle (htxn.trans hidle)
  · cases x with
    | write frame =>
      rw [txnOK_write_iff (htxn.trans hx), hplat]
      exact (txnOK_write_iff hx).mp h
    | read frame n a =>
      obtain ⟨hframe, ha, hacc, hfree⟩ := (txnOK_read_iff hx).mp h
      rw [txnOK_read_iff (htxn.trans hx), hplat]
      refine ⟨hframe, ha, hacc, fun x hlo hhi => Bool.eq_false_iff.mpr fun hown => ?_⟩
      exact Bool.eq_false_iff.mp (hfree x hlo hhi) (hle x hown)

theorem framePrefix_isPrefix (k : Option Nat) (frame : List Byte) : framePrefix k frame <+: frame := by
  cases k with
  | none => exact List.prefix_rfl
  | some k => exact List.take_prefix k frame

/-- The entry of a completion: the first bytes of the frame that was in flight, all of them where the outcome is Ok. -/
theorem wireOK_append {s t : State} {d : Direction} {frame : List Byte} {c : WireCommand} {r : TxResult}
    {k : Option Nat} (h : WireOK s) (hframe : decodeFrame s.platform frame = .ok c) (hdir : dirMatches d c)
    (hwhole : r = .ok → k = none) (hplat : t.platform = s.platform)
    (hwire : t.wire = s.wire ++ [⟨d, framePrefix k frame, r = .ok⟩]) : WireOK t := by
  intro w hw
  rw [hwire, List.mem_append, List.mem_singleton] at hw
  rw [hplat]
  obtain hbefore | rfl := hw
  · exact h w hbefore
  · refine ⟨frame, c, hframe, hdir, framePrefix_isPrefix k frame, fun hok => ?_⟩
    obtain rfl := hwhole (of_decide_eq_true hok)
    rfl

/-! ### Every step keeps the invariant -/

/-- A request of an idle block. The invariant of memory and the wire reads nothing that a request writes. -/
theorem Performed.inv {s t : State} {i : Instr} (h : Performed s i t) (hidle : s.txn = none) (hi : Inv s) : Inv t := by
  obtain ⟨hmem, hlayers, htxn, hwire⟩ := hi
  have ⟨hcfgOK, hlayerOK⟩ := hlayers
  cases h with
  | held | polled | clocked => exact ⟨hmem, hlayers, htxn, hwire⟩
  | wrote _ hframe | drewAndWrote _ _ hframe => exact ⟨hmem, hlayers, (txnOK_write_iff rfl).mpr ⟨_, hframe⟩, hwire⟩
  | read c _ haddr hlen hacc hfree =>
    have hframe := decodeFrame_encR s.platform c
    exact ⟨hmem, hlayers, (txnOK_read_iff rfl).mpr ⟨⟨c, hframe, hlen⟩, haddr, hacc, hfree⟩, hwire⟩
  | enabled _ _ hcfg _ hp _ hacc =>
    obtain ⟨-, -, hfits⟩ := hcfgOK _ hcfg
    exact ⟨hmem, setLayer_layersOK hlayers (hcfg ▸ layerEnabled_ok (fits_aw hfits) hp hacc), txnOK_of_idle hidle, hwire⟩
  | swapped hl hon _ _ hp halign hfoot hacc =>
    have hlOK := hlayerOK _ (List.mem_of_getElem? hl)
    exact ⟨hmem, setLayer_layersOK hlayers (layerSwapped_ok hlOK hon hp halign hfoot hacc), txnOK_of_idle hidle, hwire⟩
  | pitched hl hon hcfg haw hwidth hfeet hacc =>
    have hlOK := hlayerOK _ (List.mem_of_getElem? hl)
    exact ⟨hmem, setLayer_layersOK hlayers (layerPitched_ok hlOK hon hcfg haw hwidth hfeet hacc),
      txnOK_of_idle hidle, hwire⟩
  | initialised hoff haw hah hfits =>
    refine ⟨hmem, ⟨fun d hd => ?_, fun l hl => ?_⟩, txnOK_of_idle hidle, hwire⟩
    · obtain rfl := Option.some.inj hd
      exact ⟨haw, hah, hfits⟩
    · exact layerOK_of_disabled (disabled_of_ne_enabled (hoff l hl)) (hlayerOK l hl)

theorem TurnEffect.inv {a : Turn} {s t : State} (h : TurnEffect a s t) (hi : Inv s) : Inv t := by
  have ⟨hmem, hlayers, htxnOK, hwire⟩ := hi
  cases h with
  | passed => exact hi
  | requested _ hidle _ _ hdone => exact hdone.inv hidle hi
  | stored _ _ _ hacc => exact ⟨memSetBytes_memOK hmem hacc rfl rfl, hlayers, htxnOK, hwire⟩
  | answered => exact ⟨hmem, hlayers, htxnOK, hwire⟩
  | completedWrite r _ htxn hwhole =>
    obtain ⟨c, hframe⟩ := (txnOK_write_iff htxn).mp htxnOK
    exact ⟨hmem, hlayers, txnOK_of_idle rfl, wireOK_append (d := .W) hwire hframe trivial hwhole rfl rfl⟩
  | completedRead r _ htxn hacc hwhole =>
    obtain ⟨⟨c, hframe, -⟩, -⟩ := (txnOK_read_iff htxn).mp htxnOK
    exact ⟨memSetBytes_memOK hmem (by simpa using hacc) rfl rfl, hlayers, txnOK_of_idle rfl,
      wireOK_append (d := .R) hwire hframe trivial hwhole rfl rfl⟩
  | reloaded =>
    obtain ⟨hcfgOK, hlayerOK⟩ := hlayers
    have htxn : TxnOK { s with layers := s.layers.map layerReloaded } :=
      txnOK_of_owned_le htxnOK rfl rfl (fun _ => owned_of_owned_reloaded)
    refine ⟨hmem, ⟨hcfgOK, fun l hl => ?_⟩, htxn, hwire⟩
    obtain ⟨q, hq, rfl⟩ := List.mem_map.mp hl
    exact layerReloaded_ok (hlayerOK q hq)

theorem afterTurn_inv {s : State} (h : Inv s) : Inv (afterTurn s) := by
  unfold afterTurn; split <;> exact h

/-- Settles O56: the invariant does not read the schedule, and every effect of a turn keeps it. -/
theorem invariantIsKept : Obligations.InvariantIsKept := by
  intro s t hi h
  exact (step_effect h).inv (afterTurn_inv hi)

/-! ### The hardware's agents go on (R50, R86, R102, R123, R126) -/

/-- Where MEM_VALID passes to parts of a range, so does the access check (log 4). -/
theorem accessOK_of_rangeInside {p : Platform} {r q : Range} (hparts : MemValidParts p)
    (hq : accessOK p q.base q.len = true) (h : rangeInside r q = true) : accessOK p r.base r.len = true := by
  obtain ⟨hend, hvalid⟩ := (accessOK_iff _ _ _).mp hq
  obtain ⟨hpos, hlo, hhi⟩ := (rangeInside_iff _ _).mp h
  exact (accessOK_iff _ _ _).mpr ⟨hhi.trans hend, hparts _ _ _ _ hvalid hpos hlo hhi⟩

theorem scanEnabled_eq_true {i a n : Nat} {s : State} (h : scanEnabled i a n s = true) :
    ∃ l foot, s.layers[i]? = some l ∧ l.mode = .enabled ∧ footprint s.cfg l l.cfba = some foot ∧
      rangeInside ⟨a, n⟩ foot = true := by
  unfold scanEnabled at h
  split at h
  · cases h
  · split at h
    · exact ⟨_, _, ‹_›, ‹_›, ‹_›, h⟩
    · cases h

/-- The scan-out engine reads inside the displayed buffer, which exists. -/
theorem scanRead_progress {s : State} (i a n : Nat) (hparts : MemValidParts s.platform) (hlayers : LayersOK s) :
    ∃ t, scanRead i a n s = .next t := by
  unfold scanRead
  by_cases hscan : scanEnabled i a n s = true
  · obtain ⟨l, foot, hl, hon, hfoot, hinside⟩ := scanEnabled_eq_true hscan
    obtain ⟨c, pf, w, shown, pitch, ok⟩ := (layerOK_enabled_iff hon).mp (hlayers.2 l (List.mem_of_getElem? hl))
    rw [ok.cfba_eq, ok.footprint_eq] at hfoot
    obtain rfl := Option.some.inj hfoot
    have hacc := accessOK_of_rangeInside hparts ok.shown_ok.2 hinside
    exact ⟨s, by simp [hscan, hacc]⟩
  · exact ⟨s, by simp [hscan]⟩

/-- The buffer of a read in flight was checked when the read was issued. -/
theorem complete_progress {s : State} (r : TxResult) (k : Option Nat) (h : TxnOK s) :
    ∃ t, complete r k s = .next t := by
  obtain hidle | ⟨x, hx⟩ := Option.eq_none_or_eq_some s.txn
  · exact ⟨s, by simp [complete, hidle]⟩
  · cases x with
    | write frame => exact ⟨_, by simp only [complete, hx]; rfl⟩
    | read frame n a =>
      obtain ⟨-, -, hacc, -⟩ := (txnOK_read_iff hx).mp h
      exact ⟨_, by simp only [complete, hx, completeRead, hacc, not_true, if_false]; rfl⟩

theorem vblank_progress (s : State) : ∃ t, vblank s = .next t := by
  unfold vblank; split <;> exact ⟨_, rfl⟩

theorem takeTurn_progress {a : Turn} {s : State} (hparts : MemValidParts s.platform) (hi : Inv s) (ha : a ≠ .host) :
    ∃ t, takeTurn a s = .next t := by
  obtain ⟨-, hlayers, htxn, -⟩ := hi
  cases a with
  | host => exact absurd rfl ha
  | completeOk => exact complete_progress _ _ htxn
  | completeErr => exact complete_progress _ _ htxn
  | vblank => exact vblank_progress s
  | scan i a n => exact scanRead_progress i a n hparts hlayers

/-! ### No rule reads a register that holds no value (R42, R45) -/

@[simp] theorem raiseFault_ne_noValue (c : FaultCode) (o : FaultOp) (ops : List Nat) (s u : State) :
    raiseFault c o ops s ≠ .fault (.noValue u) := by
  cases c <;> simp [raiseFault, faultOf]

@[simp] theorem raiseBy_ne_noValue (i : Instr) (c : FaultCode) (s u : State) :
    raiseBy i c s ≠ .fault (.noValue u) := raiseFault_ne_noValue _ _ _ _ _

@[simp] theorem refuse_ne_fault (r : RefuseReason) (s : State) (f : Fault) : refuse r s ≠ .fault f := by
  simp [refuse]

@[simp] theorem hold_ne_fault (s : State) (f : Fault) : hold s ≠ .fault f := by simp [hold]

theorem issueWrite_ne_noValue (c : WriteCommand) (s u : State) : issueWrite c s ≠ .fault (.noValue u) := by
  unfold issueWrite; split <;> simp

theorem issueExternalWrite_ne_noValue (mk : List Byte → WriteCommand) (n : Nat) (s u : State) :
    issueExternalWrite mk n s ≠ .fault (.noValue u) := by
  unfold issueExternalWrite; split <;> simp

theorem issueLongWrite_ne_noValue (i : Instr) (mk : List Byte → WriteCommand) (a n : Nat) (s u : State) :
    issueLongWrite i mk a n s ≠ .fault (.noValue u) := by
  unfold issueLongWrite; repeat' split
  all_goals simp

theorem issueRead_ne_noValue (i : Instr) (c : ReadCommand) (a n : Nat) (s u : State) :
    issueRead i c a n s ≠ .fault (.noValue u) := by
  unfold issueRead; repeat' split
  all_goals simp

theorem execLayerEnable_ne_noValue (i p : Nat) (pf : PixelFormat) (word : BitVec 2) (s u : State) :
    execLayerEnable i p pf word s ≠ .fault (.noValue u) := by
  unfold execLayerEnable; repeat' split
  all_goals simp

theorem execLayerIsSwapPending_ne_noValue (i : Nat) (s u : State) :
    execLayerIsSwapPending i s ≠ .fault (.noValue u) := by
  unfold execLayerIsSwapPending; split <;> simp

theorem execCtrlInit_ne_noValue (c : CtrlConfig) (s u : State) : execCtrlInit c s ≠ .fault (.noValue u) := by
  unfold execCtrlInit; repeat' split
  all_goals simp

theorem execCtrlClock_ne_noValue (s u : State) : execCtrlClock s ≠ .fault (.noValue u) := by
  unfold execCtrlClock; split <;> simp

/-- `swap_framebuffer` reads a register without a value only on an Enabled layer that has no footprint. -/
theorem execLayerSwapFramebuffer_noValue {i p : Nat} {word : BitVec 2} {s u : State}
    (h : execLayerSwapFramebuffer i p word s = .fault (.noValue u)) :
    ∃ l, s.layers[i]? = some l ∧ l.mode ≠ .disabled ∧ footprint s.cfg l (some p) = none := by
  unfold execLayerSwapFramebuffer at h
  repeat' split at h
  all_goals simp at h
  simp_all

/-- `resize_buffer_pitch` does so only on an Enabled layer before `init`, or one whose buffers have no footprint. -/
theorem execLayerResizeBufferPitch_noValue {i width : Nat} {s u : State}
    (h : execLayerResizeBufferPitch i width s = .fault (.noValue u)) :
    ∃ l, s.layers[i]? = some l ∧ l.mode ≠ .disabled ∧
      (s.cfg = none ∨ pitchFootprints s.cfg (layerPitched width l) = none) := by
  unfold execLayerResizeBufferPitch at h
  repeat' split at h
  all_goals simp at h
  all_goals simp_all

theorem EnabledOK.pitchFootprints_ne_none {p : Platform} {cfg : Option CtrlConfig} {l : LayerRegs} {c : CtrlConfig}
    {pf : PixelFormat} {w : PixelWord} {shown pitch : Nat} (h : EnabledOK p cfg l c pf w shown pitch) (width : Nat) :
    pitchFootprints cfg (layerPitched width l) ≠ none := by
  have hfoot (a : Nat) : footprint cfg (layerPitched width l) (some a) = some ⟨a, bufferSize width c.ah pf⟩ :=
    footprint_of_values (l := layerPitched width l) h.cfg_eq rfl h.pf_eq a
  by_cases hswp : l.swp = true
  · obtain ⟨pending, hpending⟩ := Option.ne_none_iff_exists'.mp (h.swp_iff.mp hswp)
    simp [pitchFootprints, h.cfba_eq, hpending, hfoot, hswp]
  · simp [pitchFootprints, h.cfba_eq, hfoot, hswp]

/-- The two requests that compute a footprint do so on an Enabled layer, whose registers hold values. -/
theorem exec_ne_noValue {s : State} (i : Instr) (u : State) (h : LayersOK s) : exec i s ≠ .fault (.noValue u) := by
  have henabled {j : Nat} {l : LayerRegs} (hl : s.layers[j]? = some l) (hon : l.mode ≠ .disabled) :=
    (layerOK_enabled_iff (enabled_of_ne_disabled hon)).mp (h.2 l (List.mem_of_getElem? hl))
  cases i with
  | writeDcsShortP0 | writeDcsShortP1 | writeGenericShortP0 | writeSetMaximumReturnPacketSize =>
    exact issueWrite_ne_noValue _ _ _
  | writeDcsLongWrite | writeGenericLongWrite => exact issueLongWrite_ne_noValue _ _ _ _ _ _
  | writeGenericShortP1 | writeGenericShortP2 => exact issueExternalWrite_ne_noValue _ _ _ _
  | readDcsShort | readGenericShortP0 | readGenericShortP1 | readGenericShortP2 =>
    exact issueRead_ne_noValue _ _ _ _ _ _
  | layerEnable => exact execLayerEnable_ne_noValue _ _ _ _ _ _
  | layerSwapFramebuffer =>
    intro hno
    obtain ⟨l, hl, hon, hnone⟩ := execLayerSwapFramebuffer_noValue hno
    obtain ⟨c, pf, w, shown, pitch, ok⟩ := henabled hl hon
    simp [ok.footprint_eq] at hnone
  | layerIsSwapPending => exact execLayerIsSwapPending_ne_noValue _ _ _
  | layerResizeBufferPitch =>
    intro hno
    obtain ⟨l, hl, hon, hnone⟩ := execLayerResizeBufferPitch_noValue hno
    obtain ⟨c, pf, w, shown, pitch, ok⟩ := henabled hl hon
    obtain hcfg | hfeet := hnone
    · simp [ok.cfg_eq] at hcfg
    · exact ok.pitchFootprints_ne_none _ hfeet
  | ctrlInit => exact execCtrlInit_ne_noValue _ _ _
  | ctrlClock => exact execCtrlClock_ne_noValue _ _

theorem hostStore_ne_noValue (a : Nat) (bs : List Byte) (s u : State) : hostStore a bs s ≠ .fault (.noValue u) := by
  unfold hostStore; repeat' split
  all_goals simp

theorem hostLoad_ne_noValue (a n : Nat) (s u : State) : hostLoad a n s ≠ .fault (.noValue u) := by
  unfold hostLoad; repeat' split
  all_goals simp

/-- A round of polling faults only as its request `is_swap_pending` does. -/
theorem hostPoll_ne_noValue (i : Nat) (s u : State) : hostPoll i s ≠ .fault (.noValue u) := by
  unfold hostPoll
  split
  · split <;> simp
  · next hexec =>
    intro hno
    obtain rfl := Host.Outcome.fault.inj hno
    exact execLayerIsSwapPending_ne_noValue _ _ _ hexec
  · simp

theorem hostPerform_ne_noValue {s : State} (act : HostAction) (u : State) (h : LayersOK s) :
    hostPerform act s ≠ .fault (.noValue u) := by
  cases act with
  | request r =>
    cases hdec : decode s.platform r with
    | error reason =>
      rw [hostPerform_request_error hdec]
      exact refuse_ne_fault _ _ _
    | ok i =>
      rw [hostPerform_request_ok hdec]
      exact exec_ne_noValue i u h
  | store => exact hostStore_ne_noValue _ _ _ _
  | load => exact hostLoad_ne_noValue _ _ _ _
  | pollSwap => exact hostPoll_ne_noValue _ _ _

theorem hostTurn_ne_noValue {s : State} (u : State) (h : LayersOK s) : hostTurn s ≠ .fault (.noValue u) := by
  unfold hostTurn
  repeat' split
  · simp
  · simp
  · exact hostPerform_ne_noValue _ u h

theorem complete_ne_noValue (r : TxResult) (k : Option Nat) (s u : State) : complete r k s ≠ .fault (.noValue u) := by
  unfold complete completeWrite completeRead; repeat' split
  all_goals simp

theorem vblank_ne_noValue (s u : State) : vblank s ≠ .fault (.noValue u) := by
  unfold vblank; split <;> simp

theorem scanRead_ne_noValue (i a n : Nat) (s u : State) : scanRead i a n s ≠ .fault (.noValue u) := by
  unfold scanRead; repeat' split
  all_goals simp

theorem takeTurn_ne_noValue {s : State} (a : Turn) (u : State) (h : LayersOK s) :
    takeTurn a s ≠ .fault (.noValue u) := by
  cases a with
  | host => exact hostTurn_ne_noValue u h
  | completeOk | completeErr => exact complete_ne_noValue _ _ _ _
  | vblank => exact vblank_ne_noValue _ _
  | scan => exact scanRead_ne_noValue _ _ _ _ _

theorem step_of_running {s : State} (h : running s = true) : step s = takeTurn (nextTurn s) (afterTurn s) := if_pos h

/-- Settles O58: the invariant gives the checks of the hardware's agents, and a value to every register read. -/
theorem onlyTheHostCanFault : Obligations.OnlyTheHostCanFault := by
  intro s hi hrun
  rw [step_of_running hrun]
  have hinv := afterTurn_inv hi
  have ⟨_, hlayers, _, _⟩ := hinv
  refine ⟨fun hparts hturn => ?_, fun u => takeTurn_ne_noValue _ u hlayers⟩
  exact takeTurn_progress (by simpa using hparts) hinv hturn

end Sys2Proof.Machine

/-! PROOFS for 20_memory.md: the host's own stores and loads (O44, O45), which steps change a byte of memory (O55), and
that no step changes an owned one (O57). -/

namespace Sys2Proof.Machine

/-! ### The two checks of an access, as propositions (R50, R51) -/

theorem meetsOwned_of_not_free {s : State} {a n : Nat} (h : ¬ FreeOfOwned s a n) : meetsOwned s a n = true := by
  rwa [← meetsOwned_eq_false_iff, Bool.not_eq_false] at h

theorem accessOK_of_not_exist {p : Platform} {a n : Nat} (h : ¬ BytesExist p a n) : accessOK p a n = false := by
  rwa [← accessOK_iff, Bool.not_eq_true] at h

/-! ### A host store (R51): one equation for each outcome -/

theorem hostStore_of_free {s : State} {a : Nat} {bs : List Byte} (hfree : FreeOfOwned s a bs.length)
    (hexist : BytesExist s.platform a bs.length) :
    hostStore a bs s = .next { s with mem := memSetBytes s.mem a bs } := by
  simp [hostStore, (meetsOwned_eq_false_iff _ _ _).mpr hfree, (accessOK_iff _ _ _).mpr hexist]

theorem hostStore_of_owned {s : State} {a : Nat} {bs : List Byte} (howned : ¬ FreeOfOwned s a bs.length) :
    hostStore a bs s = raiseFault .ownedBufferAccess .hostStore [a, bs.length] s := by
  simp [hostStore, meetsOwned_of_not_free howned]

theorem hostStore_of_missing {s : State} {a : Nat} {bs : List Byte} (hfree : FreeOfOwned s a bs.length)
    (hmissing : ¬ BytesExist s.platform a bs.length) :
    hostStore a bs s = raiseFault .footprintInvalid .hostStore [a, bs.length] s := by
  simp [hostStore, (meetsOwned_eq_false_iff _ _ _).mpr hfree, accessOK_of_not_exist hmissing]

/-- Settles O44: the equation of each outcome, and reading inside and outside the bytes stored. -/
theorem hostStoreRespectsOwnership : Obligations.HostStoreRespectsOwnership := by
  intro s a bs hwf
  refine ⟨fun hfree hexist => ⟨_, hostStore_of_free hfree hexist, rfl, fun k hk => ?_, fun x hx => ?_⟩,
    hostStore_of_owned, hostStore_of_missing⟩
  · rw [memByte_memSetBytes_inside a bs k hwf hk, List.getElem?_eq_getElem hk]
  · exact memByte_memSetBytes_outside a bs x hwf hx

/-! ### A host load (R51): one equation for each outcome -/

theorem hostLoad_of_readable {s : State} {a n : Nat}
    (hread : s.platform.hostReadOwnedAllowed = true ∨ FreeOfOwned s a n) (hexist : BytesExist s.platform a n) :
    hostLoad a n s = .next (deliver (.load (memBytes s.mem a n)) s) := by
  simp [hostLoad, (readMeetsOwned_eq_false_iff _ _ _).mpr hread, (accessOK_iff _ _ _).mpr hexist]

theorem hostLoad_of_owned {s : State} {a n : Nat} (hkept : s.platform.hostReadOwnedAllowed = false)
    (howned : ¬ FreeOfOwned s a n) : hostLoad a n s = raiseFault .ownedBufferAccess .hostLoad [a, n] s := by
  simp [hostLoad, readMeetsOwned, hkept, meetsOwned_of_not_free howned]

theorem hostLoad_of_missing {s : State} {a n : Nat}
    (hread : s.platform.hostReadOwnedAllowed = true ∨ FreeOfOwned s a n) (hmissing : ¬ BytesExist s.platform a n) :
    hostLoad a n s = raiseFault .footprintInvalid .hostLoad [a, n] s := by
  simp [hostLoad, (readMeetsOwned_eq_false_iff _ _ _).mpr hread, accessOK_of_not_exist hmissing]

theorem getElem?_memBytes {m : Memory} {a n k : Nat} (hk : k < n) :
    (memBytes m a n)[k]? = some (memByte m (a + k)) := by
  simp [memBytes_eq_map, hk]

/-- Settles O45: the equation of each outcome; the bytes delivered are those of `memBytes`. -/
theorem hostLoadRespectsOwnership : Obligations.HostLoadRespectsOwnership := by
  intro s a n
  refine ⟨fun hread hexist => ⟨memBytes s.mem a n, memBytes_length _ _ _, fun _ => getElem?_memBytes, ?_⟩,
    hostLoad_of_owned, hostLoad_of_missing⟩
  exact hostLoad_of_readable hread hexist

/-! ### Which turns change a byte of memory (R46, R43) -/

@[simp] theorem afterTurn_mem (s : State) : (afterTurn s).mem = s.mem := by
  unfold afterTurn; split <;> rfl

theorem Performed.mem_eq {s t : State} {i : Instr} (h : Performed s i t) : t.mem = s.mem := by
  cases h <;> rfl

/-- A byte that a write of bytes changes is one of those written. -/
theorem covered_of_memByte_memSetBytes_ne {m : Memory} {a : Nat} {bs : List Byte} {x : Nat} (hwf : m.wf = true)
    (hne : memByte (memSetBytes m a bs) x ≠ memByte m x) : a ≤ x ∧ x < a + bs.length := by
  by_contra houtside
  exact hne (memByte_memSetBytes_outside a bs x hwf (by omega))

/-- The two writers of memory, each with the bytes it writes: the host, whose store has passed the ownership check of
R51, and the transport, which fills the buffer of the read in flight (R102, R103). -/
theorem TurnEffect.writer_of_byte_changed {a : Turn} {s t : State} {x : Nat} (h : TurnEffect a s t)
    (hwf : s.mem.wf = true) (hne : memByte t.mem x ≠ memByte s.mem x) :
    (a = .host ∧ ∃ addr bs rest, s.hostQueue = .store addr bs :: rest ∧ FreeOfOwned s addr bs.length ∧
      addr ≤ x ∧ x < addr + bs.length) ∨
    (IsCompletion a ∧ ∃ frame n addr, s.txn = some (.read frame n addr) ∧ addr ≤ x ∧ x < addr + n) := by
  cases h with
  | stored hturn hq hfree => exact .inl ⟨hturn, _, _, _, hq, hfree, covered_of_memByte_memSetBytes_ne hwf hne⟩
  | @completedRead _ n _ _ _ hturn htxn =>
    have hcovered := covered_of_memByte_memSetBytes_ne hwf hne
    rw [drawnBytes_length] at hcovered
    exact .inr ⟨hturn, _, _, _, htxn, hcovered⟩
  | requested _ _ _ _ hdone => exact absurd (congrArg (memByte · x) hdone.mem_eq) hne
  | passed | answered | completedWrite | reloaded => exact absurd rfl hne

/-- Settles O55: the writers of memory, whose turn, queue and transaction the schedule does not touch. -/
theorem memoryChangesOnlyByStoreOrResponse : Obligations.MemoryChangesOnlyByStoreOrResponse := by
  intro s t x ⟨hwf, _⟩ h hne
  obtain ⟨hturn, addr, bs, rest, hq, -, hcovered⟩ | ⟨hturn, frame, n, addr, htxn, hcovered⟩ :=
    (step_effect h).writer_of_byte_changed (by simpa using hwf) (by simpa using hne)
  · exact .inl ⟨hturn, addr, bs, rest, by simpa using hq, hcovered⟩
  · exact .inr ⟨hturn, frame, n, addr, by simpa using htxn, hcovered⟩

/-! ### No step changes an owned byte (R51, R117, R166, R167) -/

/-- Neither writer reaches an owned byte: the host's store was checked at this turn (R51), and the buffer of a read in
flight has stayed outside the owned set since the read was issued, as the invariant says (R101). -/
theorem TurnEffect.owned_byte_eq {a : Turn} {s t : State} {x : Nat} (h : TurnEffect a s t) (hi : Inv s)
    (howned : owned s x = true) : memByte t.mem x = memByte s.mem x := by
  obtain ⟨⟨hwf, -⟩, -, htxnOK, -⟩ := hi
  by_contra hne
  have hfree : owned s x = false := by
    obtain ⟨-, _, _, _, -, hfree, hlo, hhi⟩ | ⟨-, _, _, _, htxn, hlo, hhi⟩ := h.writer_of_byte_changed hwf hne
    · exact hfree x hlo hhi
    · obtain ⟨-, -, -, hfree⟩ := (txnOK_read_iff htxn).mp htxnOK
      exact hfree x hlo hhi
  exact Bool.eq_false_iff.mp hfree howned

/-- Settles O57: using up the turn touches neither memory nor the owned set, and no effect of a turn changes an owned
byte. -/
theorem ownedBytesAreNeverWritten : Obligations.OwnedBytesAreNeverWritten := by
  intro s t x hi h howned
  rw [← owned_congr (afterTurn_cfg s) (afterTurn_layers s)] at howned
  rw [← afterTurn_mem s]
  exact (step_effect h).owned_byte_eq (afterTurn_inv hi) howned

end Sys2Proof.Machine

/-! PROOFS for 30_encoding.md: the tables and frames (O1 to O4), the frame checker (O5 to O7), the request records (O8
to O11), and the bytes that GenericShortP1 and GenericShortP2 send (O17). -/

namespace Sys2Proof

/-! ### Discriminants, labels and codes: the tables read both ways (R64, R65, R66, R71, R77) -/

/-- A function's values are those it takes on a list that holds every argument. -/
theorem exists_eq_iff_mem_map {α β : Type} {f : α → β} {all : List α} (hall : ∀ a, a ∈ all) (b : β) :
    (∃ a, f a = b) ↔ b ∈ all.map f := by simp [hall]

@[simp] theorem writeVariantOf_discW (v : WriteVariant) : writeVariantOf (discW v).toNat = some v := by cases v <;> rfl

@[simp] theorem readVariantOf_discR (v : ReadVariant) : readVariantOf (discR v).toNat = some v := by cases v <;> rfl

/-- No read discriminant is a write discriminant (R71). -/
@[simp] theorem writeVariantOf_discR (v : ReadVariant) : writeVariantOf (discR v).toNat = none := by cases v <;> rfl

theorem discW_of_writeVariantOf {dt : Nat} {v : WriteVariant} (h : writeVariantOf dt = some v) :
    (discW v).toNat = dt := by
  simpa using List.find?_some h

theorem discR_of_readVariantOf {dt : Nat} {v : ReadVariant} (h : readVariantOf dt = some v) :
    (discR v).toNat = dt := by
  simpa using List.find?_some h

theorem opLabel_of_requestKindOf {op : Nat} {k : RequestKind} (h : requestKindOf op = some k) : opLabel k = op := by
  simpa using List.find?_some h

theorem writeVariantOf_eq_none {dt : Nat} (h : ∀ v, (discW v).toNat ≠ dt) : writeVariantOf dt = none := by
  simp [writeVariantOf, h]

theorem readVariantOf_eq_none {dt : Nat} (h : ∀ v, (discR v).toNat ≠ dt) : readVariantOf dt = none := by
  simp [readVariantOf, h]

theorem requestKindOf_eq_none {op : Nat} (h : ∀ k, opLabel k ≠ op) : requestKindOf op = none := by
  simp [requestKindOf, h]

theorem discW_injective {v w : WriteVariant} (h : discW v = discW w) : v = w :=
  Option.some.inj (by rw [← writeVariantOf_discW v, h, writeVariantOf_discW])

theorem discR_injective {v w : ReadVariant} (h : discR v = discR w) : v = w :=
  Option.some.inj (by rw [← readVariantOf_discR v, h, readVariantOf_discR])

theorem discW_ne_discR (v : WriteVariant) (w : ReadVariant) : discW v ≠ discR w := by
  intro h
  have hv := writeVariantOf_discW v
  simp [h] at hv

@[simp] theorem pixelFormatOf_pixelFormatCode (pf : PixelFormat) : pixelFormatOf (pixelFormatCode pf) = pf := by
  cases pf <;> rfl

@[simp] theorem pixelFormatCode_pixelFormatOf (code : BitVec 3) : pixelFormatCode (pixelFormatOf code) = code := by
  revert code; decide

/-! ### Frames: byte 0 and the bytes of a size (R69, R71, R95, R108) -/

/-- Byte 0 of a write frame is the discriminant of its variant, whatever follows (R72). -/
theorem encW_head? (o : ByteOrder) (c : WriteCommand) : (encW o c).head? = some (discW (writeVariantOfCommand c)) := by
  cases c <;> rfl

theorem encR_head? (c : ReadCommand) : (encR c).head? = some (discR (readVariantOfCommand c)) := by
  cases c <;> rfl

theorem lo8_eq (size : BitVec 16) : lo8 size = BitVec.ofNat 8 (size.toNat % 256) :=
  BitVec.eq_of_toNat_eq (by simp [lo8_toNat])

theorem hi8_eq (size : BitVec 16) : hi8 size = BitVec.ofNat 8 (size.toNat / 256) :=
  BitVec.eq_of_toNat_eq (by simp only [hi8_toNat, BitVec.toNat_ofNat]; omega)

/-- The two bytes of a size, joined and taken apart again in the same order, are the same two bytes. -/
theorem orderBytes_of_joinBytes (o : ByteOrder) (first second : Byte) :
    orderBytes o (lo8 (joinBytes o first second)) (hi8 (joinBytes o first second)) = [first, second] := by
  have hfields := sizeFields_joinBytes o first second
  rw [sizeFields_eq] at hfields
  exact List.map_injective_iff.mpr (fun _ _ => BitVec.eq_of_toNat_eq) (by simpa using hfields)

/-- Settles O1: the frames are the table's, and byte 0 is a function of the variant alone. -/
theorem writeFrameBytes : Obligations.WriteFrameBytes := by
  refine ⟨⟨rfl, rfl, rfl, rfl, rfl, rfl, rfl, rfl⟩, fun o a d data x size => ?_, encW_head?, fun o o' c c' h => ?_⟩
  · refine ⟨rfl, rfl, rfl, rfl, rfl, rfl, rfl, ?_, ?_⟩ <;> simp [encW, orderBytes, lo8_eq, hi8_eq]
  · rw [encW_head?, encW_head?, h]

/-- Settles O2: the tables, and byte 0 of a read frame. -/
theorem readFrameBytes : Obligations.ReadFrameBytes :=
  ⟨⟨rfl, rfl, rfl, rfl⟩, fun _ _ _ => ⟨rfl, rfl, rfl, rfl⟩, encR_head?⟩

/-- Settles O3: byte 0 is a discriminant, and the twelve discriminants are distinct. -/
theorem byteZeroNamesVariantAndDirection : Obligations.ByteZeroNamesVariantAndDirection := by
  refine ⟨fun b => ?_, fun b => ?_, fun o o' c c' h => ?_, fun c c' h => ?_, fun o c c' h => ?_⟩
  · exact exists_eq_iff_mem_map (f := discW) (all := [.genericShortP0, .dcsShortP0, .genericShortP1, .dcsShortP1,
      .genericShortP2, .genericLongWrite, .setMaximumReturnPacketSize, .dcsLongWrite])
      (fun v => by cases v <;> decide) b
  · exact exists_eq_iff_mem_map (f := discR) (all := [.genericShortP0, .dcsShort, .genericShortP1, .genericShortP2])
      (fun v => by cases v <;> decide) b
  · rw [encW_head?, encW_head?] at h
    exact discW_injective (Option.some.inj h)
  · rw [encR_head?, encR_head?] at h
    exact discR_injective (Option.some.inj h)
  · rw [encW_head?, encR_head?] at h
    exact discW_ne_discR _ _ (Option.some.inj h)

/-- Settles O4: the tables; the two pixel-format tables are each other's inverse. -/
theorem pixelFormatAndWordTables : Obligations.PixelFormatAndWordTables :=
  ⟨⟨rfl, rfl, rfl, rfl, rfl, rfl, rfl, rfl⟩, pixelFormatOf_pixelFormatCode, pixelFormatCode_pixelFormatOf,
    ⟨rfl, rfl, rfl, rfl⟩, rfl, rfl, rfl, rfl, rfl, rfl, rfl, rfl⟩

/-! ### The frame checker (R74) -/

theorem externalArgsOK_iff {p : Platform} {c : WriteCommand} : ExternalArgsOK p c ↔
    (∀ x, c = .genericShortP1 x → x.length = p.extArgsP1) ∧ ∀ x, c = .genericShortP2 x → x.length = p.extArgsP2 := by
  cases c <;> simp [ExternalArgsOK]

@[simp] theorem decodeFrame_discW (p : Platform) (v : WriteVariant) (rest : List Byte) :
    decodeFrame p (discW v :: rest) = decodeWriteFrame p v rest := by simp [decodeFrame]

@[simp] theorem decodeFrame_discR (p : Platform) (v : ReadVariant) (rest : List Byte) :
    decodeFrame p (discR v :: rest) = decodeReadFrame v rest := by simp [decodeFrame]

theorem decodeFrame_unknown (p : Platform) {b : Byte} (rest : List Byte) (hW : ∀ v, discW v ≠ b)
    (hR : ∀ v, discR v ≠ b) : decodeFrame p (b :: rest) = .error .unknownCode := by
  have hw : writeVariantOf b.toNat = none := writeVariantOf_eq_none fun v hv => hW v (BitVec.eq_of_toNat_eq hv)
  have hr : readVariantOf b.toNat = none := readVariantOf_eq_none fun v hv => hR v (BitVec.eq_of_toNat_eq hv)
  simp [decodeFrame, hw, hr]

/-- A write frame that is accepted is the frame of a write command of the variant that byte 0 names. -/
theorem decodeWriteFrame_ok {p : Platform} {v : WriteVariant} {rest : List Byte} {c : WireCommand}
    (h : decodeWriteFrame p v rest = .ok c) :
    ∃ w, c = .write w ∧ encW p.mrpsByteOrder w = discW v :: rest ∧ ExternalArgsOK p w := by
  unfold decodeWriteFrame at h
  split at h
  case h_7 | h_8 =>
    split at h
    · next hlen => cases h; exact ⟨_, rfl, rfl, hlen⟩
    · cases h
  case h_9 => cases h
  case h_4 =>
    cases h
    exact ⟨_, rfl, congrArg (0x37#8 :: ·) (orderBytes_of_joinBytes _ _ _), trivial⟩
  all_goals
    cases h
    exact ⟨_, rfl, rfl, trivial⟩

theorem decodeReadFrame_ok {v : ReadVariant} {rest : List Byte} {c : WireCommand}
    (h : decodeReadFrame v rest = .ok c) : ∃ r, c = .read r ∧ encR r = discR v :: rest := by
  unfold decodeReadFrame at h
  split at h <;> cases h <;> exact ⟨_, rfl, rfl⟩

/-- A byte list that the checker accepts is a command's frame, and the checker answers that command. -/
theorem decodeFrame_ok {p : Platform} {bs : List Byte} {c : WireCommand} (h : decodeFrame p bs = .ok c) :
    (∃ w, c = .write w ∧ encW p.mrpsByteOrder w = bs ∧ ExternalArgsOK p w) ∨ ∃ r, c = .read r ∧ encR r = bs := by
  unfold decodeFrame at h
  split at h
  · cases h
  split at h
  · next hv =>
    rw [← BitVec.eq_of_toNat_eq (discW_of_writeVariantOf hv)]
    exact .inl (decodeWriteFrame_ok h)
  split at h
  · next hv =>
    rw [← BitVec.eq_of_toNat_eq (discR_of_readVariantOf hv)]
    exact .inr (decodeReadFrame_ok h)
  · cases h

/-- Settles O5: `decodeFrame_encW` and `decodeFrame_encR`. -/
theorem frameDecodesToItsCommand : Obligations.FrameDecodesToItsCommand := fun p =>
  ⟨fun _ hP1 hP2 => decodeFrame_encW (externalArgsOK_iff.mpr ⟨hP1, hP2⟩), decodeFrame_encR p⟩

/-- Settles O6: the checker's answer, written or read, has the byte list for its frame. -/
theorem decodedFrameIsTheEncoding : Obligations.DecodedFrameIsTheEncoding := by
  refine fun p bs => ⟨fun c h => ?_, fun c h => ?_⟩
  · obtain ⟨w, hc, henc, hext⟩ | ⟨r, hc, -⟩ := decodeFrame_ok h
    · cases hc
      exact ⟨henc, externalArgsOK_iff.mp hext⟩
    · cases hc
  · obtain ⟨w, hc, -⟩ | ⟨r, hc, henc⟩ := decodeFrame_ok h
    · cases hc
    · cases hc
      exact henc

/-- How many bytes may follow byte 0 of a write frame (R74). -/
def WriteArgCountOK (p : Platform) (n : Nat) : WriteVariant → Prop
  | .genericShortP0 => n = 0
  | .dcsShortP0 => n = 1
  | .dcsShortP1 | .setMaximumReturnPacketSize => n = 2
  | .dcsLongWrite | .genericLongWrite => 1 ≤ n
  | .genericShortP1 => n = p.extArgsP1
  | .genericShortP2 => n = p.extArgsP2

/-- How many bytes may follow byte 0 of a read frame (R74). -/
def ReadArgCountOK (n : Nat) : ReadVariant → Prop
  | .genericShortP0 => n = 0
  | .dcsShort | .genericShortP1 => n = 1
  | .genericShortP2 => n = 2

theorem decodeFrame_discW_badLength {p : Platform} (v : WriteVariant) {rest : List Byte}
    (h : ¬ WriteArgCountOK p rest.length v) : decodeFrame p (discW v :: rest) = .error .badLength := by
  rw [decodeFrame_discW]
  unfold decodeWriteFrame
  split
  case h_7 | h_8 => exact if_neg h
  case h_9 => rfl
  all_goals simp [WriteArgCountOK] at h

theorem decodeFrame_discR_badLength {p : Platform} (v : ReadVariant) {rest : List Byte}
    (h : ¬ ReadArgCountOK rest.length v) : decodeFrame p (discR v :: rest) = .error .badLength := by
  rw [decodeFrame_discR]
  unfold decodeReadFrame
  split
  case h_5 => rfl
  all_goals simp [ReadArgCountOK] at h

/-- Settles O7: each code of the last clause is a variant's discriminant, and the count is not that variant's. -/
theorem frameCheckerVerdicts : Obligations.FrameCheckerVerdicts := by
  refine fun p => ⟨rfl, fun b rest hW hR => decodeFrame_unknown p rest hW hR, fun b rest => ?_⟩
  simp only [List.mem_cons, List.not_mem_nil, or_false]
  refine ⟨?_, ?_, ?_, ?_, ?_, ?_⟩
  · rintro (rfl | rfl) h
    · exact decodeFrame_discW_badLength .genericShortP0 h
    · exact decodeFrame_discR_badLength .genericShortP0 h
  · rintro (rfl | rfl | rfl) h
    · exact decodeFrame_discW_badLength .dcsShortP0 h
    · exact decodeFrame_discR_badLength .dcsShort h
    · exact decodeFrame_discR_badLength .genericShortP1 h
  · rintro (rfl | rfl | rfl) h
    · exact decodeFrame_discW_badLength .dcsShortP1 h
    · exact decodeFrame_discR_badLength .genericShortP2 h
    · exact decodeFrame_discW_badLength .setMaximumReturnPacketSize h
  · rintro rfl h
    exact decodeFrame_discW_badLength .genericShortP1 h
  · rintro rfl h
    exact decodeFrame_discW_badLength .genericShortP2 h
  · rintro (rfl | rfl) h
    · exact decodeFrame_discW_badLength .genericLongWrite (Nat.not_le.mpr h)
    · exact decodeFrame_discW_badLength .dcsLongWrite (Nat.not_le.mpr h)

end Sys2Proof

namespace Sys2Proof

/-! ### The request decoder, one equation per row that has operand fields to check (R77, R79) -/

section Rows
variable (p : Platform)

theorem decode_dcsShortP0 (a : Nat) : decode p ⟨0x10, [0x05, a], []⟩ = do
    return .writeDcsShortP0 (← operandField 8 a) := rfl

theorem decode_dcsShortP1 (a d : Nat) : decode p ⟨0x10, [0x15, a, d], []⟩ = do
    return .writeDcsShortP1 (← operandField 8 a) (← operandField 8 d) := rfl

theorem decode_dcsLongWrite (a dAddr dLen : Nat) : decode p ⟨0x10, [0x39, a], [dAddr, dLen]⟩ = do
    return .writeDcsLongWrite (← operandField 8 a) (← paramField p.addrBits dAddr) dLen := rfl

theorem decode_genericLongWrite (a dAddr dLen : Nat) : decode p ⟨0x10, [0x29, a], [dAddr, dLen]⟩ = do
    return .writeGenericLongWrite (← operandField 8 a) (← paramField p.addrBits dAddr) dLen := rfl

theorem decode_setMaximumReturnPacketSize (first second : Nat) : decode p ⟨0x10, [0x37, first, second], []⟩ = do
    return .writeSetMaximumReturnPacketSize
      (joinBytes p.mrpsByteOrder (← operandField 8 first) (← operandField 8 second)) := rfl

theorem decode_readDcsShort (a bAddr n : Nat) : decode p ⟨0x11, [0x06, a], [bAddr, n]⟩ = do
    return .readDcsShort (← operandField 8 a) (← paramField p.addrBits bAddr) n := rfl

theorem decode_readGenericShortP0 (bAddr n : Nat) : decode p ⟨0x11, [0x04], [bAddr, n]⟩ = do
    return .readGenericShortP0 (← paramField p.addrBits bAddr) n := rfl

theorem decode_readGenericShortP1 (a bAddr n : Nat) : decode p ⟨0x11, [0x14, a], [bAddr, n]⟩ = do
    return .readGenericShortP1 (← operandField 8 a) (← paramField p.addrBits bAddr) n := rfl

theorem decode_readGenericShortP2 (a0 a1 bAddr n : Nat) : decode p ⟨0x11, [0x24, a0, a1], [bAddr, n]⟩ = do
    return .readGenericShortP2 (← operandField 8 a0) (← operandField 8 a1) (← paramField p.addrBits bAddr) n := rfl

theorem decode_enable (i ptr pf word : Nat) : decode p ⟨0x20, [], [i, ptr, pf, word]⟩ = do
    return .layerEnable i (← paramField p.addrBits ptr) (pixelFormatOf (← operandField 3 pf)) (← wordField word) := rfl

theorem decode_swapFramebuffer (i ptr word : Nat) : decode p ⟨0x21, [], [i, ptr, word]⟩ = do
    return .layerSwapFramebuffer i (← paramField p.addrBits ptr) (← wordField word) := rfl

theorem decode_resizeBufferPitch (i width : Nat) : decode p ⟨0x23, [], [i, width]⟩ = do
    return .layerResizeBufferPitch i (← paramField p.pitchBits width) := rfl

theorem decode_init (fields : List Nat) : decode p ⟨0x30, [], fields⟩ = do
    return .ctrlInit (← decodeCfg p fields) := rfl

end Rows

/-! ### A well-formed request is decoded back from its record (R77, R78) -/

theorem decodeCfg_encodeCfg {p : Platform} {c : CtrlConfig} (h : cfgFits p c = true) :
    decodeCfg p (encodeCfg c) = .ok c := by
  simp only [cfgFits, Bool.and_eq_true] at h
  obtain ⟨⟨⟨⟨⟨⟨⟨haw, hah⟩, hhbp⟩, hhfp⟩, hvbp⟩, hvfp⟩, hhsw⟩, hvsw⟩ := h
  simp only [encodeCfg, decodeCfg, paramField_fits haw, paramField_fits hah, paramField_fits hhbp, paramField_fits hhfp,
    paramField_fits hvbp, paramField_fits hvfp, paramField_fits hhsw, paramField_fits hvsw, operandField_toNat]
  rfl

theorem decode_encode {p : Platform} {i : Instr} (h : wellFormed p i = true) : decode p (encode p i) = .ok i := by
  cases i with
  | writeGenericShortP0 | writeGenericShortP1 | writeGenericShortP2 | layerIsSwapPending | ctrlClock => rfl
  | writeDcsShortP0 | writeDcsShortP1 =>
    simp only [encode, decode_dcsShortP0, decode_dcsShortP1, operandField_toNat]
    rfl
  | writeDcsLongWrite | writeGenericLongWrite =>
    simp only [encode, decode_dcsLongWrite, decode_genericLongWrite, operandField_toNat, paramField_fits h]
    rfl
  | writeSetMaximumReturnPacketSize size =>
    obtain ⟨first, second, hfields, hjoin⟩ := joinBytes_sizeFields p.mrpsByteOrder size
    simp only [encode, hfields, decode_setMaximumReturnPacketSize, operandField_toNat]
    rw [← hjoin]
    rfl
  | readDcsShort | readGenericShortP0 | readGenericShortP1 | readGenericShortP2 =>
    simp only [encode, decode_readDcsShort, decode_readGenericShortP0, decode_readGenericShortP1,
      decode_readGenericShortP2, operandField_toNat, paramField_fits h]
    rfl
  | layerEnable i ptr pf word =>
    obtain ⟨hptr, hword⟩ := Bool.and_eq_true_iff.mp h
    simp only [encode, decode_enable, operandField_toNat, paramField_fits hptr, wordField_toNat hword]
    show Except.ok (Instr.layerEnable i ptr (pixelFormatOf (pixelFormatCode pf)) word) = _
    rw [pixelFormatOf_pixelFormatCode]
  | layerSwapFramebuffer =>
    obtain ⟨hptr, hword⟩ := Bool.and_eq_true_iff.mp h
    simp only [encode, decode_swapFramebuffer, paramField_fits hptr, wordField_toNat hword]
    rfl
  | layerResizeBufferPitch =>
    simp only [encode, decode_resizeBufferPitch, paramField_fits h]
    rfl
  | ctrlInit =>
    simp only [encode, decode_init, decodeCfg_encodeCfg h]
    rfl

/-- Settles O8: `decode_encode`, row by row. -/
theorem requestDecodesToItself : Obligations.RequestDecodesToItself := fun _ _ => decode_encode

/-- Settles O11: each record is the spelling of the request, which is well formed at these widths. -/
theorem writtenOutRecordsDecode : Obligations.WrittenOutRecordsDecode := by
  intro p haddr hpitch
  refine ⟨decode_encode (i := .writeDcsShortP0 0x11#8) rfl,
    decode_encode (i := .writeDcsLongWrite 0x2A#8 0x8000 4) (by simp [wellFormed, haddr]),
    decode_encode (i := .readGenericShortP2 0x01#8 0x02#8 0x9000 1) (by simp [wellFormed, haddr]),
    decode_encode (i := .layerEnable 0 0x10000 .rgb565 1#2) (by simp [wellFormed, wordCodeOK, haddr]),
    decode_encode (i := .layerResizeBufferPitch 0 8) (by simp [wellFormed, hpitch]),
    decode_encode (i := .ctrlClock) rfl, fun horder => ?_, fun horder => ?_⟩
  · simpa [encode, horder, sizeFields] using decode_encode (p := p) (i := .writeSetMaximumReturnPacketSize 1#16) rfl
  · simpa [encode, horder, sizeFields] using decode_encode (p := p) (i := .writeSetMaximumReturnPacketSize 0x100#16) rfl

/-! ### An admitted record is the spelling of the request it decodes to (R77, R79) -/

theorem operandField_eq_ok_iff {w v : Nat} {x : BitVec w} : operandField w v = .ok x ↔ v = x.toNat := by
  refine ⟨fun h => (operandField_eq_ok h).symm, ?_⟩
  rintro rfl
  exact operandField_toNat x

theorem wordField_eq_ok_iff {v : Nat} {x : BitVec 2} : wordField v = .ok x ↔ v = x.toNat ∧ wordCodeOK x = true := by
  refine ⟨fun h => ⟨(wordField_eq_ok h).1.symm, (wordField_eq_ok h).2⟩, ?_⟩
  rintro ⟨rfl, hword⟩
  exact wordField_toNat hword

theorem encode_of_decodeWrite {p : Platform} {cmd operands : List Nat} {i : Instr}
    (h : decodeWrite p cmd operands = .ok i) : encode p i = ⟨opLabel .write, cmd, operands⟩ := by
  unfold decodeWrite at h
  split at h
  · cases h
  split at h
  · cases h
  next hv =>
  obtain rfl := discW_of_writeVariantOf hv
  split at h <;> simp only [bind_eq_ok_iff, pure_eq_ok_iff, paramField_eq_ok_iff, operandField_eq_ok_iff,
    Except.ok.injEq, reduceCtorEq] at h
  case h_1 =>
    obtain ⟨a, rfl, rfl⟩ := h
    rfl
  case h_2 =>
    obtain ⟨a, rfl, d, rfl, rfl⟩ := h
    rfl
  case h_3 | h_7 =>
    obtain ⟨a, rfl, _, ⟨rfl, -⟩, rfl⟩ := h
    rfl
  case h_4 | h_5 | h_6 =>
    subst h
    rfl
  case h_8 =>
    obtain ⟨first, rfl, second, rfl, rfl⟩ := h
    simp only [encode, sizeFields_joinBytes]
    rfl

theorem encode_of_decodeRead {p : Platform} {cmd operands : List Nat} {i : Instr}
    (h : decodeRead p cmd operands = .ok i) : encode p i = ⟨opLabel .read, cmd, operands⟩ := by
  unfold decodeRead at h
  split at h
  · cases h
  split at h
  · cases h
  next hv =>
  obtain rfl := discR_of_readVariantOf hv
  split at h <;> simp only [bind_eq_ok_iff, pure_eq_ok_iff, paramField_eq_ok_iff, operandField_eq_ok_iff,
    reduceCtorEq] at h
  case h_1 | h_3 =>
    obtain ⟨a, rfl, _, ⟨rfl, -⟩, rfl⟩ := h
    rfl
  case h_2 =>
    obtain ⟨_, ⟨rfl, -⟩, rfl⟩ := h
    rfl
  case h_4 =>
    obtain ⟨a0, rfl, a1, rfl, _, ⟨rfl, -⟩, rfl⟩ := h
    rfl

theorem encodeCfg_of_decodeCfg {p : Platform} {fields : List Nat} {c : CtrlConfig} (h : decodeCfg p fields = .ok c) :
    encodeCfg c = fields := by
  unfold decodeCfg at h
  split at h
  · simp only [bind_eq_ok_iff, pure_eq_ok_iff, paramField_eq_ok_iff, operandField_eq_ok_iff] at h
    obtain ⟨_, ⟨rfl, -⟩, _, ⟨rfl, -⟩, _, ⟨rfl, -⟩, _, ⟨rfl, -⟩, _, ⟨rfl, -⟩, _, ⟨rfl, -⟩, _, ⟨rfl, -⟩, _, ⟨rfl, -⟩,
      _, rfl, _, rfl, _, rfl, _, rfl, rfl⟩ := h
    rfl
  · cases h

theorem encode_of_decodeControl {p : Platform} {k : RequestKind} {cmd operands : List Nat} {i : Instr}
    (h : decodeControl p k cmd operands = .ok i) : encode p i = ⟨opLabel k, cmd, operands⟩ := by
  unfold decodeControl at h
  split at h <;> simp only [bind_eq_ok_iff, pure_eq_ok_iff, paramField_eq_ok_iff, operandField_eq_ok_iff,
    wordField_eq_ok_iff, Except.ok.injEq, reduceCtorEq] at h
  case h_1 =>
    obtain ⟨_, ⟨rfl, -⟩, code, rfl, word, ⟨rfl, -⟩, rfl⟩ := h
    simp only [encode, pixelFormatCode_pixelFormatOf]
    rfl
  case h_2 =>
    obtain ⟨_, ⟨rfl, -⟩, word, ⟨rfl, -⟩, rfl⟩ := h
    rfl
  case h_4 =>
    obtain ⟨_, ⟨rfl, -⟩, rfl⟩ := h
    rfl
  case h_5 =>
    obtain ⟨c, hcfg, rfl⟩ := h
    simp only [encode, encodeCfg_of_decodeCfg hcfg]
    rfl
  case h_3 | h_6 =>
    subst h
    rfl

theorem encode_of_decode {p : Platform} {r : RawRequest} {i : Instr} (h : decode p r = .ok i) : encode p i = r := by
  unfold decode at h
  split at h
  · cases h
  · next hk => rw [encode_of_decodeWrite h, opLabel_of_requestKindOf hk]
  · next hk => rw [encode_of_decodeRead h, opLabel_of_requestKindOf hk]
  · next hk => rw [encode_of_decodeControl h, opLabel_of_requestKindOf hk]

/-- Settles O9: each half of the decoder answers only requests whose encoding is the record it was given. -/
theorem admittedRequestIsItsEncoding : Obligations.AdmittedRequestIsItsEncoding :=
  fun _ _ _ h => ⟨decode_wellFormed h, encode_of_decode h⟩

end Sys2Proof

namespace Sys2Proof

/-! ### The refusals by name (R79) -/

theorem decode_unknownOp {p : Platform} {r : RawRequest} (h : ∀ k, opLabel k ≠ r.op) :
    decode p r = .error .unknownOp := by
  simp [decode, requestKindOf_eq_none h]

theorem decode_write_unknownCode (p : Platform) {dt : Nat} (fields operands : List Nat)
    (h : ∀ v, (discW v).toNat ≠ dt) : decode p ⟨0x10, dt :: fields, operands⟩ = .error .unknownCode := by
  show decodeWrite p (dt :: fields) operands = _
  simp [decodeWrite, writeVariantOf_eq_none h]

theorem decode_read_unknownCode (p : Platform) {dt : Nat} (fields operands : List Nat)
    (h : ∀ v, (discR v).toNat ≠ dt) : decode p ⟨0x11, dt :: fields, operands⟩ = .error .unknownCode := by
  show decodeRead p (dt :: fields) operands = _
  simp [decodeRead, readVariantOf_eq_none h]

/-- How many fields a write command has after its DT (R68). -/
def writeFieldCount : WriteVariant → Nat
  | .dcsShortP0 | .dcsLongWrite | .genericLongWrite => 1
  | .dcsShortP1 | .setMaximumReturnPacketSize => 2
  | .genericShortP0 | .genericShortP1 | .genericShortP2 => 0

/-- How many operand fields a write has after its command: the slice of a long write (R77). -/
def writeOperandCount : WriteVariant → Nat
  | .dcsLongWrite | .genericLongWrite => 2
  | _ => 0

/-- How many fields a read command has after its DT (R68). -/
def readFieldCount : ReadVariant → Nat
  | .dcsShort | .genericShortP1 => 1
  | .genericShortP0 => 0
  | .genericShortP2 => 2

/-- How many operand fields a control request has (R77); `write` and `read` are none. -/
def controlOperandCount : RequestKind → Nat
  | .enable => 4
  | .swapFramebuffer => 3
  | .isSwapPending => 1
  | .resizeBufferPitch => 2
  | .init => 12
  | .clock | .write | .read => 0

/-- The decoder's rows are the only shapes of a write's fields. -/
theorem decode_write_badFields {p : Platform} {v : WriteVariant} {fields operands : List Nat}
    (h : fields.length ≠ writeFieldCount v ∨ operands.length ≠ writeOperandCount v) :
    decode p ⟨0x10, (discW v).toNat :: fields, operands⟩ = .error .badFields := by
  show decodeWrite p ((discW v).toNat :: fields) operands = _
  simp only [decodeWrite, writeVariantOf_discW]
  split
  case h_9 => rfl
  all_goals simp [writeFieldCount, writeOperandCount] at h

theorem decode_read_badFields {p : Platform} {v : ReadVariant} {fields operands : List Nat}
    (h : fields.length ≠ readFieldCount v ∨ operands.length ≠ 2) :
    decode p ⟨0x11, (discR v).toNat :: fields, operands⟩ = .error .badFields := by
  show decodeRead p ((discR v).toNat :: fields) operands = _
  simp only [decodeRead, readVariantOf_discR]
  split
  case h_5 => rfl
  all_goals simp [readFieldCount] at h

theorem decodeCfg_badFields {p : Platform} {fields : List Nat} (h : fields.length ≠ 12) :
    decodeCfg p fields = .error .badFields := by
  unfold decodeCfg
  split
  · simp at h
  · rfl

theorem decodeControl_badFields {p : Platform} {k : RequestKind} {cmd operands : List Nat}
    (h : cmd ≠ [] ∨ operands.length ≠ controlOperandCount k) : decodeControl p k cmd operands = .error .badFields := by
  unfold decodeControl
  split
  case h_5 =>
    rw [decodeCfg_badFields (by simpa [controlOperandCount] using h)]
    rfl
  case h_7 => rfl
  all_goals simp [controlOperandCount] at h

theorem operandField_of_lt {w v : Nat} (h : v < 2 ^ w) : operandField w v = .ok (BitVec.ofNat w v) := if_pos h

section Wide
variable {α : Type} {w v w' v' : Nat}

/-- A chain of operand fields is refused with `operand_range` where its first field is too wide, or the rest is refused
so whatever the first one holds. -/
theorem operandField_bind_wide {f : BitVec w → Except RefuseReason α}
    (h : 2 ^ w ≤ v ∨ ∀ x, f x = .error .operandRange) : operandField w v >>= f = .error .operandRange := by
  by_cases hv : v < 2 ^ w
  · rw [operandField_of_lt hv]
    exact h.resolve_left (Nat.not_le.mpr hv) _
  · rw [operandField_wide (Nat.not_lt.mp hv)]
    rfl

/-- As `operandField_bind_wide`, for a field whose width is a parameter. -/
theorem paramField_bind_wide {f : Nat → Except RefuseReason α}
    (h : 2 ^ w ≤ v ∨ ∀ x, f x = .error .operandRange) : paramField w v >>= f = .error .operandRange := by
  by_cases hv : v < 2 ^ w
  · rw [paramField_fits ((fits_iff _ _).mpr hv)]
    exact h.resolve_left (Nat.not_le.mpr hv) _
  · rw [paramField_wide (Nat.not_lt.mp hv)]
    rfl

/-- The fields of a long write, and of a read with one argument. -/
theorem operandField_paramField_bind_wide {f : BitVec w → Nat → Except RefuseReason α} (h : 2 ^ w ≤ v ∨ 2 ^ w' ≤ v') :
    (operandField w v >>= fun a => paramField w' v' >>= f a) = .error .operandRange :=
  operandField_bind_wide (h.imp_right fun h _ => paramField_bind_wide (.inl h))

theorem wordField_bind_wide {f : BitVec 2 → Except RefuseReason α} (h : 2 ^ 2 ≤ v) :
    wordField v >>= f = .error .operandRange := by
  rw [wordField_wide h]
  rfl

end Wide

/-- A size above 0xFFFF has a field too wide for a byte, in either byte order (R69, R79). -/
theorem sizeFields_wide (o : ByteOrder) {size : Nat} (h : 2 ^ 16 ≤ size) :
    ∃ first second, sizeFields o size = [first, second] ∧ (2 ^ 8 ≤ first ∨ 2 ^ 8 ≤ second) := by
  have hhigh : 2 ^ 8 ≤ size / 256 := by omega
  cases o
  · exact ⟨_, _, rfl, .inr hhigh⟩
  · exact ⟨_, _, rfl, .inl hhigh⟩

theorem decode_setMaximumReturnPacketSize_wide {p : Platform} {first second : Nat}
    (h : 2 ^ 8 ≤ first ∨ 2 ^ 8 ≤ second) : decode p ⟨0x10, [0x37, first, second], []⟩ = .error .operandRange := by
  rw [decode_setMaximumReturnPacketSize]
  exact operandField_bind_wide (h.imp_right fun h _ => operandField_bind_wide (.inl h))

/-- The record's twelve fields are checked one after another, and any of them can be the one too wide. -/
theorem decodeCfg_wide {p : Platform} {numbers flags : List Nat} (hn : numbers.length = 8) (hf : flags.length = 4)
    (h : (∃ v ∈ numbers, 2 ^ p.cfgBits ≤ v) ∨ ∃ v ∈ flags, 2 ^ 1 ≤ v) :
    decodeCfg p (numbers ++ flags) = .error .operandRange := by
  match numbers, flags, hn, hf with
  | [aw, ah, hbp, hfp, vbp, vfp, hsw, vsw], [hsync, vsync, de, pclk], _, _ =>
    simp only [List.exists_mem_cons_iff, List.not_mem_nil, false_and, exists_false, or_false, or_assoc] at h
    iterate 8 refine paramField_bind_wide (h.imp_right fun h _ => ?_)
    iterate 3 refine operandField_bind_wide (h.imp_right fun h _ => ?_)
    exact operandField_bind_wide (.inl h)

/-- Settles O10: the shapes that no row of the decoder has, then each row's chain of operand fields with one too wide,
then the rows with a WORD code, given 3. -/
theorem illFormedRequestsAreRefused : Obligations.IllFormedRequestsAreRefused := by
  intro pl
  refine ⟨?unknownOp, fun _ => decode_write_unknownCode pl, fun _ => decode_read_unknownCode pl, ?writeFields,
    ?readFields, ?noDT, ?controlFields, ?dcsShortP0, ?dcsShortP1, fun _ _ => decode_setMaximumReturnPacketSize_wide,
    ?size, ?longWrite, ?readP0, ?readOne, ?readP2, ?enable, ?swap, ?pitch, ?init, ?enableWord, ?swapWord⟩
  case unknownOp =>
    refine fun r hop => decode_unknownOp fun k hk => hop ?_
    rw [← hk]
    cases k <;> decide
  case writeFields =>
    exact fun v _ _ h => decode_write_badFields (by cases v <;> exact h)
  case readFields =>
    exact fun v _ _ h => decode_read_badFields (by cases v <;> exact h)
  case noDT =>
    intro op operands hop
    simp only [List.mem_cons, List.not_mem_nil, or_false] at hop
    obtain rfl | rfl := hop <;> rfl
  case controlFields =>
    intro op count cmd operands hrow h
    simp only [List.mem_cons, List.not_mem_nil, or_false, Prod.mk.injEq] at hrow
    obtain ⟨rfl, rfl⟩ | ⟨rfl, rfl⟩ | ⟨rfl, rfl⟩ | ⟨rfl, rfl⟩ | ⟨rfl, rfl⟩ | ⟨rfl, rfl⟩ := hrow
    · exact decodeControl_badFields (k := .enable) h
    · exact decodeControl_badFields (k := .swapFramebuffer) h
    · exact decodeControl_badFields (k := .isSwapPending) h
    · exact decodeControl_badFields (k := .resizeBufferPitch) h
    · exact decodeControl_badFields (k := .init) h
    · exact decodeControl_badFields (k := .clock) h
  case dcsShortP0 =>
    exact fun a h => (decode_dcsShortP0 pl a).trans (operandField_bind_wide (.inl h))
  case dcsShortP1 =>
    exact fun a d h => (decode_dcsShortP1 pl a d).trans
      (operandField_bind_wide (h.imp_right fun h _ => operandField_bind_wide (.inl h)))
  case size =>
    intro size h
    obtain ⟨first, second, hfields, hwide⟩ := sizeFields_wide pl.mrpsByteOrder h
    rw [hfields]
    exact decode_setMaximumReturnPacketSize_wide hwide
  case longWrite =>
    intro dt a dAddr dLen hdt h
    simp only [List.mem_cons, List.not_mem_nil, or_false] at hdt
    obtain rfl | rfl := hdt
    · exact (decode_dcsLongWrite pl a dAddr dLen).trans (operandField_paramField_bind_wide h)
    · exact (decode_genericLongWrite pl a dAddr dLen).trans (operandField_paramField_bind_wide h)
  case readP0 =>
    exact fun bAddr n h => (decode_readGenericShortP0 pl bAddr n).trans (paramField_bind_wide (.inl h))
  case readOne =>
    intro dt a bAddr n hdt h
    simp only [List.mem_cons, List.not_mem_nil, or_false] at hdt
    obtain rfl | rfl := hdt
    · exact (decode_readDcsShort pl a bAddr n).trans (operandField_paramField_bind_wide h)
    · exact (decode_readGenericShortP1 pl a bAddr n).trans (operandField_paramField_bind_wide h)
  case readP2 =>
    exact fun a0 a1 bAddr n h => (decode_readGenericShortP2 pl a0 a1 bAddr n).trans
      (operandField_bind_wide (h.imp_right fun h _ => operandField_paramField_bind_wide h))
  case enable =>
    exact fun i p pf word h => (decode_enable pl i p pf word).trans
      (paramField_bind_wide (h.imp_right fun h _ =>
        operandField_bind_wide (h.imp_right fun h _ => wordField_bind_wide h)))
  case swap =>
    exact fun i p word h => (decode_swapFramebuffer pl i p word).trans
      (paramField_bind_wide (h.imp_right fun h _ => wordField_bind_wide h))
  case pitch =>
    exact fun i width h => (decode_resizeBufferPitch pl i width).trans (paramField_bind_wide (.inl h))
  case init =>
    intro numbers flags hn hf h
    rw [decode_init, decodeCfg_wide hn hf h]
    rfl
  case enableWord =>
    intro i p pf hp hpf
    rw [decode_enable, paramField_fits ((fits_iff _ _).mpr hp), operandField_of_lt hpf]
    rfl
  case swapWord =>
    intro i p hp
    rw [decode_swapFramebuffer, paramField_fits ((fits_iff _ _).mpr hp)]
    rfl

end Sys2Proof

namespace Sys2Proof.Machine

/-! ### The drawn bytes of GenericShortP1 and GenericShortP2 (R70, R91, R92) -/

theorem exec_writeGenericShortP1 {s : State} (hidle : s.txn = none) : exec .writeGenericShortP1 s =
    .next (startTxn (.write ([0x13#8] ++ drawnBytes s.platform.extArgsP1 s)) (afterDraw s.platform.extArgsP1 s)) := by
  show issueExternalWrite .genericShortP1 s.platform.extArgsP1 s = _
  simp [issueExternalWrite, hidle, encW]

theorem exec_writeGenericShortP2 {s : State} (hidle : s.txn = none) : exec .writeGenericShortP2 s =
    .next (startTxn (.write ([0x23#8] ++ drawnBytes s.platform.extArgsP2 s)) (afterDraw s.platform.extArgsP2 s)) := by
  show issueExternalWrite .genericShortP2 s.platform.extArgsP2 s = _
  simp [issueExternalWrite, hidle, encW]

/-- Bytes lined up outside are the ones drawn, in order. -/
theorem drawnBytes_of_tape {s : State} {x rest : List Byte} (h : s.tape = x ++ rest) : drawnBytes x.length s = x := by
  simp [drawnBytes, h]

theorem afterDraw_of_tape {s : State} {x rest : List Byte} (h : s.tape = x ++ rest) :
    afterDraw x.length s = { s with tape := rest } := by
  simp [afterDraw, h]

/-- Settles O17: the bytes drawn are the next of the tape, and drawing touches the tape and its counter alone. -/
theorem externalWriteSendsWhatIsDrawn : Obligations.ExternalWriteSendsWhatIsDrawn := by
  refine fun s hidle => ⟨?_, ?_, fun x rest htape hlen => ?_, fun x rest htape hlen => ?_⟩
  · exact ⟨_, _, drawnBytes_length _ s, exec_writeGenericShortP1 hidle, rfl⟩
  · exact ⟨_, _, drawnBytes_length _ s, exec_writeGenericShortP2 hidle, rfl⟩
  · rw [exec_writeGenericShortP1 hidle, ← hlen, drawnBytes_of_tape htape, afterDraw_of_tape htape]
    rfl
  · rw [exec_writeGenericShortP2 hidle, ← hlen, drawnBytes_of_tape htape, afterDraw_of_tape htape]
    rfl

end Sys2Proof.Machine

/-! PROOFS for 40_dsi_write.md: how a write is issued (O15, O16), held (O19) or faults (O20), and how it completes
(O22). -/

namespace Sys2Proof.Machine

/-! ### Issuing a short write (R85) -/

theorem issueWrite_of_idle {c : WriteCommand} {s : State} (hidle : s.txn = none) :
    issueWrite c s = .next (startTxn (.write (encW s.platform.mrpsByteOrder c)) s) := by
  simp [issueWrite, hidle]

/-- Settles O15: each short write is issued with its own frame; the two bytes of a size go out in MRPS_BYTE_ORDER. -/
theorem shortWriteStartsItsTransaction : Obligations.ShortWriteStartsItsTransaction := by
  refine fun s hidle => ⟨fun a => issueWrite_of_idle hidle, fun a d => issueWrite_of_idle hidle,
    issueWrite_of_idle hidle, fun size => (issueWrite_of_idle hidle).trans ?_⟩
  cases horder : s.platform.mrpsByteOrder <;> simp [startTxn, encW, orderBytes, lo8_eq, hi8_eq]

/-! ### Issuing a long write (R85, R89, R93): one equation for each outcome, in the order of the checks (R150) -/

theorem longDataOK_iff (p : Platform) (n : Nat) :
    longDataOK p n = true ↔ ∀ m, p.maxLongData = some m → n ≤ m := by
  unfold longDataOK
  cases p.maxLongData <;> simp

section LongWrite
variable {i : Instr} {mk : List Byte → WriteCommand} {a n : Nat} {s : State}

theorem issueLongWrite_of_tooLong (hidle : s.txn = none)
    (hlong : ∃ m, s.platform.maxLongData = some m ∧ m < n) :
    issueLongWrite i mk a n s = raiseBy i .longDataTooLong s := by
  obtain ⟨m, hmax, hlt⟩ := hlong
  simp [issueLongWrite, hidle, longDataOK, hmax, hlt]

theorem issueLongWrite_of_owned (hidle : s.txn = none)
    (hlen : ∀ m, s.platform.maxLongData = some m → n ≤ m)
    (hkept : s.platform.hostReadOwnedAllowed = false) (howned : ¬ FreeOfOwned s a n) :
    issueLongWrite i mk a n s = raiseBy i .ownedBufferAccess s := by
  simp [issueLongWrite, hidle, (longDataOK_iff _ _).mpr hlen, readMeetsOwned, hkept, meetsOwned_of_not_free howned]

theorem issueLongWrite_of_missing (hidle : s.txn = none)
    (hlen : ∀ m, s.platform.maxLongData = some m → n ≤ m)
    (hread : s.platform.hostReadOwnedAllowed = true ∨ FreeOfOwned s a n) (hmissing : ¬ BytesExist s.platform a n) :
    issueLongWrite i mk a n s = raiseBy i .footprintInvalid s := by
  simp [issueLongWrite, hidle, (longDataOK_iff _ _).mpr hlen, (readMeetsOwned_eq_false_iff _ _ _).mpr hread,
    accessOK_of_not_exist hmissing]

theorem issueLongWrite_of_readable (hidle : s.txn = none)
    (hlen : ∀ m, s.platform.maxLongData = some m → n ≤ m)
    (hread : s.platform.hostReadOwnedAllowed = true ∨ FreeOfOwned s a n) (hexist : BytesExist s.platform a n) :
    issueLongWrite i mk a n s =
      .next (startTxn (.write (encW s.platform.mrpsByteOrder (mk (memBytes s.mem a n)))) s) := by
  simp [issueLongWrite, hidle, (longDataOK_iff _ _).mpr hlen, (readMeetsOwned_eq_false_iff _ _ _).mpr hread,
    (accessOK_iff _ _ _).mpr hexist]

end LongWrite

/-- Settles O16: both long writes pass their three checks, and the data of both frames are the bytes of `memBytes`. -/
theorem longWriteStartsItsTransaction : Obligations.LongWriteStartsItsTransaction := by
  intro s a dAddr dLen hidle hlen hread hexist
  refine ⟨memBytes s.mem dAddr dLen, memBytes_length _ _ _, fun _ => getElem?_memBytes, ?_, ?_⟩
  · exact issueLongWrite_of_readable hidle hlen hread hexist
  · exact issueLongWrite_of_readable hidle hlen hread hexist

/-- Each of the two long writes is issued by `issueLongWrite`, and its fault record holds its discriminant, its address
byte and its slice (R145; log 14). -/
theorem exec_longWrite {i : Instr} {dt : Nat} {a : Byte} {dAddr dLen : Nat} (s : State)
    (hi : i = .writeDcsLongWrite a dAddr dLen ∧ dt = 0x39 ∨ i = .writeGenericLongWrite a dAddr dLen ∧ dt = 0x29) :
    ∃ mk, exec i s = issueLongWrite i mk dAddr dLen s ∧
      ∀ code, raiseBy i code s = raiseFault code (.request .write) [dt, a.toNat, dAddr, dLen] s := by
  obtain ⟨rfl, rfl⟩ | ⟨rfl, rfl⟩ := hi
  · exact ⟨.dcsLongWrite a, rfl, fun _ => rfl⟩
  · exact ⟨.genericLongWrite a, rfl, fun _ => rfl⟩

/-- Settles O20: the equation of each fault, for both long writes at once. -/
theorem longWriteFaultsInOrder : Obligations.LongWriteFaultsInOrder := by
  intro s a dAddr dLen hidle i dt hi
  obtain ⟨mk, hexec, hraise⟩ := exec_longWrite s hi
  rw [hexec]
  refine ⟨fun hlong => ?_, fun hlen hkept howned => ?_, fun hlen hread hmissing => ?_⟩
  · exact (issueLongWrite_of_tooLong hidle hlong).trans (hraise _)
  · exact (issueLongWrite_of_owned hidle hlen hkept howned).trans (hraise _)
  · exact (issueLongWrite_of_missing hidle hlen hread hmissing).trans (hraise _)

/-! ### While a transaction is in flight (R85, R100, R101, R148) -/

section Busy
variable {s : State} {x : InFlight}

theorem issueWrite_of_busy (c : WriteCommand) (hbusy : s.txn = some x) : issueWrite c s = .next s := by
  simp [issueWrite, hbusy]

theorem issueLongWrite_of_busy (i : Instr) (mk : List Byte → WriteCommand) (a n : Nat) (hbusy : s.txn = some x) :
    issueLongWrite i mk a n s = .next s := by
  simp [issueLongWrite, hbusy]

theorem issueExternalWrite_of_busy (mk : List Byte → WriteCommand) (n : Nat) (hbusy : s.txn = some x) :
    issueExternalWrite mk n s = .next s := by
  simp [issueExternalWrite, hbusy]

theorem issueRead_of_busy (i : Instr) (c : ReadCommand) (a n : Nat) (hbusy : s.txn = some x) :
    issueRead i c a n s = .next s := by
  simp [issueRead, hbusy]

theorem exec_dsi_of_busy {i : Instr} (hdsi : requestKindOfInstr i = .write ∨ requestKindOfInstr i = .read)
    (hbusy : s.txn = some x) : exec i s = .next s := by
  cases i with
  | writeDcsShortP0 | writeDcsShortP1 | writeGenericShortP0 | writeSetMaximumReturnPacketSize =>
    exact issueWrite_of_busy _ hbusy
  | writeDcsLongWrite | writeGenericLongWrite => exact issueLongWrite_of_busy _ _ _ _ hbusy
  | writeGenericShortP1 | writeGenericShortP2 => exact issueExternalWrite_of_busy _ _ hbusy
  | readDcsShort | readGenericShortP0 | readGenericShortP1 | readGenericShortP2 =>
    exact issueRead_of_busy _ _ _ _ hbusy
  | layerEnable | layerSwapFramebuffer | layerIsSwapPending | layerResizeBufferPitch | ctrlInit | ctrlClock =>
    simp [requestKindOfInstr] at hdsi

theorem hostTurn_of_busy (hbusy : s.txn = some x) : hostTurn s = .next s := by
  simp [hostTurn, hbusy]

end Busy

/-- Settles O19: each way of issuing a DSI request holds while a transaction is in flight, and the host's turn passes. -/
theorem busyEncoderHoldsRequests : Obligations.BusyEncoderHoldsRequests := by
  intro s htxn
  obtain ⟨x, hbusy⟩ := Option.ne_none_iff_exists'.mp htxn
  exact ⟨fun i hdsi => exec_dsi_of_busy hdsi hbusy, hostTurn_of_busy hbusy⟩

/-! ### Completing a write (R86) -/

theorem complete_of_write {s : State} {frame : List Byte} (r : TxResult) (k : Option Nat)
    (htxn : s.txn = some (.write frame)) :
    complete r k s = .next { s with
      txn := none, wire := s.wire ++ [⟨.W, framePrefix k frame, r = .ok⟩], results := s.results ++ [.write r] } := by
  simp [complete, htxn, completeWrite, endTxn, deliver, emit]

theorem takeTurn_completeErr_of_write {s : State} {frame : List Byte} (e : TransportError) (k : Nat)
    (htxn : s.txn = some (.write frame)) :
    takeTurn (.completeErr e k) s = .next { s with
      txn := none, wire := s.wire ++ [⟨.W, frame.take k, false⟩], results := s.results ++ [.write (.err e)] } :=
  complete_of_write (.err e) (some k) htxn

/-- Settles O22: one equation for both outcomes. A cut past the end of the frame is the cut at its end, so every cut
logs one of the lengths up to the frame's; each such length is a cut itself. -/
theorem writeCompletion : Obligations.WriteCompletion := by
  refine fun s frame htxn => ⟨complete_of_write .ok none htxn, fun e k => ?_, fun e j _ => ?_⟩
  · refine ⟨min k frame.length, Nat.min_le_right _ _, ?_⟩
    rw [takeTurn_completeErr_of_write e k htxn, ← List.take_eq_take_min]
  · exact ⟨j, takeTurn_completeErr_of_write e j htxn⟩

end Sys2Proof.Machine

/-! PROOFS for 41_dsi_read.md: how a read is issued (O18) or faults (O21), and how it completes (O23). -/

namespace Sys2Proof.Machine

/-! ### Issuing a read (R101): one equation for each outcome, in the order of the checks (R150) -/

section Read
variable {i : Instr} {c : ReadCommand} {a n : Nat} {s : State}

theorem issueRead_of_badCount (hidle : s.txn = none)
    (hcount : readLenOK s.platform (readVariantOfCommand c) n = false) :
    issueRead i c a n s = raiseBy i .readLen s := by
  simp [issueRead, hidle, hcount]

theorem issueRead_of_missing (hidle : s.txn = none)
    (hcount : readLenOK s.platform (readVariantOfCommand c) n = true) (hmissing : ¬ BytesExist s.platform a n) :
    issueRead i c a n s = raiseBy i .footprintInvalid s := by
  simp [issueRead, hidle, hcount, accessOK_of_not_exist hmissing]

theorem issueRead_of_owned (hidle : s.txn = none)
    (hcount : readLenOK s.platform (readVariantOfCommand c) n = true) (hexist : BytesExist s.platform a n)
    (howned : ¬ FreeOfOwned s a n) : issueRead i c a n s = raiseBy i .ownedBufferAccess s := by
  simp [issueRead, hidle, hcount, (accessOK_iff _ _ _).mpr hexist, meetsOwned_of_not_free howned]

theorem issueRead_of_free (hidle : s.txn = none)
    (hcount : readLenOK s.platform (readVariantOfCommand c) n = true) (hexist : BytesExist s.platform a n)
    (hfree : FreeOfOwned s a n) : issueRead i c a n s = .next (startTxn (.read (encR c) n a) s) := by
  simp [issueRead, hidle, hcount, (accessOK_iff _ _ _).mpr hexist, (meetsOwned_eq_false_iff _ _ _).mpr hfree]

end Read

/-- Settles O18: each variant passes its three checks, and `encR` spells its frame. -/
theorem readStartsItsTransaction : Obligations.ReadStartsItsTransaction := by
  refine fun s bAddr n hidle hexist hfree => ⟨fun a hcount => ?_, fun hcount => ?_, fun a hcount => ?_,
    fun a0 a1 hcount => ?_⟩
  · exact issueRead_of_free (c := .dcsShort a) hidle hcount hexist hfree
  · exact issueRead_of_free (c := .genericShortP0) hidle hcount hexist hfree
  · exact issueRead_of_free (c := .genericShortP1 a) hidle hcount hexist hfree
  · exact issueRead_of_free (c := .genericShortP2 a0 a1) hidle hcount hexist hfree

/-- Each of the four reads is issued by `issueRead` as a command of its variant, and its fault record holds its command
and its buffer (R145; log 14). -/
theorem exec_read {i : Instr} {v : ReadVariant} {cmd : List Nat} {a0 a1 : Byte} {bAddr n : Nat} (s : State)
    (hi : i = .readDcsShort a0 bAddr n ∧ v = .dcsShort ∧ cmd = [0x06, a0.toNat] ∨
      i = .readGenericShortP0 bAddr n ∧ v = .genericShortP0 ∧ cmd = [0x04] ∨
      i = .readGenericShortP1 a0 bAddr n ∧ v = .genericShortP1 ∧ cmd = [0x14, a0.toNat] ∨
      i = .readGenericShortP2 a0 a1 bAddr n ∧ v = .genericShortP2 ∧ cmd = [0x24, a0.toNat, a1.toNat]) :
    ∃ c, readVariantOfCommand c = v ∧ exec i s = issueRead i c bAddr n s ∧
      ∀ code, raiseBy i code s = raiseFault code (.request .read) (cmd ++ [bAddr, n]) s := by
  obtain ⟨rfl, rfl, rfl⟩ | ⟨rfl, rfl, rfl⟩ | ⟨rfl, rfl, rfl⟩ | ⟨rfl, rfl, rfl⟩ := hi
  · exact ⟨.dcsShort a0, rfl, rfl, fun _ => rfl⟩
  · exact ⟨.genericShortP0, rfl, rfl, fun _ => rfl⟩
  · exact ⟨.genericShortP1 a0, rfl, rfl, fun _ => rfl⟩
  · exact ⟨.genericShortP2 a0 a1, rfl, rfl, fun _ => rfl⟩

/-- Settles O21: the equation of each fault, for all four reads at once. -/
theorem readFaultsInOrder : Obligations.ReadFaultsInOrder := by
  intro s a0 a1 bAddr n hidle i v cmd hi
  obtain ⟨c, rfl, hexec, hraise⟩ := exec_read s hi
  rw [hexec]
  refine ⟨fun hcount => ?_, fun hcount hmissing => ?_, fun hcount hexist howned => ?_⟩
  · exact (issueRead_of_badCount hidle hcount).trans (hraise _)
  · exact (issueRead_of_missing hidle hcount hmissing).trans (hraise _)
  · exact (issueRead_of_owned hidle hcount hexist howned).trans (hraise _)

/-! ### Completing a read (R102, R103) -/

theorem complete_of_read {s : State} {frame : List Byte} {n a : Nat} (r : TxResult) (k : Option Nat)
    (htxn : s.txn = some (.read frame n a)) (hexist : BytesExist s.platform a n) :
    complete r k s = .next { afterDraw n s with
      txn := none, wire := s.wire ++ [⟨.R, framePrefix k frame, r = .ok⟩], results := s.results ++ [.read r],
      mem := memSetBytes s.mem a (drawnBytes n s) } := by
  simp [complete, htxn, completeRead, (accessOK_iff _ _ _).mpr hexist, endTxn, deliver, emit, afterDraw]

/-- The transport's two turns are one operation, which logs the whole frame on Ok and its first `k` bytes on Err. -/
theorem takeTurn_eq_complete {turn : Turn} {r : TxResult} {frame bytes : List Byte} {ok : Bool} (s : State)
    (hturn : turn = .completeOk ∧ r = .ok ∧ bytes = frame ∧ ok = true ∨
      ∃ e k, turn = .completeErr e k ∧ r = .err e ∧ bytes = frame.take k ∧ ok = false) :
    ∃ k, takeTurn turn s = complete r k s ∧ framePrefix k frame = bytes ∧ decide (r = .ok) = ok := by
  obtain ⟨rfl, rfl, rfl, rfl⟩ | ⟨e, k, rfl, rfl, rfl, rfl⟩ := hturn
  · exact ⟨none, rfl, rfl, rfl⟩
  · exact ⟨some k, rfl, rfl, rfl⟩

/-- Settles O23: one equation for both outcomes; the bytes drawn read back inside the buffer, and the bytes outside it
read as before. -/
theorem readCompletion : Obligations.ReadCompletion := by
  intro s frame n bAddr htxn hwf hexist turn r bytes ok hturn
  obtain ⟨k, hcomplete, rfl, rfl⟩ := takeTurn_eq_complete s hturn
  have hlen : (drawnBytes n s).length = n := drawnBytes_length n s
  refine ⟨_, drawnBytes n s, hcomplete.trans (complete_of_read r k htxn hexist), hlen, fun j hj => ?_,
    fun x hx => ?_, fun x rest htape hx => ?_, rfl⟩
  · have hj' : j < (drawnBytes n s).length := hlen.symm ▸ hj
    rw [memByte_memSetBytes_inside bAddr _ j hwf hj', List.getElem?_eq_getElem hj']
  · exact memByte_memSetBytes_outside bAddr _ x hwf (by rwa [hlen])
  · exact hx ▸ drawnBytes_of_tape htape

end Sys2Proof.Machine

/-! PROOFS for 42_display_layer.md: what each layer request does and where it faults (O25 to O27, O29, O30, O32 to O35),
what it makes owned (O28, O31), the vertical blank (O40 to O42), scan-out (O43), and what every step keeps of an Enabled
layer (O49, O51), so that a pending swap is consumed (O59). -/

namespace Sys2Proof.Machine

/-! ### The checks of a layer request, as propositions (R52, R67) -/

theorem aligned_iff (p : Platform) (w : PixelWord) (a : Nat) : aligned p w a = true ↔ a % fbAlign p w = 0 := by
  simp [aligned]

/-- 3 is the one WORD code that names no word width (R67). -/
theorem pixelWordOf_of_ne_reserved {word : BitVec 2} (h : word ≠ 3#2) : ∃ w, pixelWordOf word = some w := by
  have hcodes : ∀ code : BitVec 2, code ≠ 3#2 → (pixelWordOf code).isSome = true := by decide
  exact Option.isSome_iff_exists.mp (hcodes word h)

/-! ### `enable`: one equation for each outcome, in the order of the checks (R118, R150) -/

section Enable
variable {s : State} {i p : Nat} {pf : PixelFormat} {word : BitVec 2} {w : PixelWord} {l : LayerRegs} {c : CtrlConfig}

theorem execLayerEnable_of_noLayer (hword : pixelWordOf word = some w) (hl : s.layers[i]? = none) :
    execLayerEnable i p pf word s = raiseBy (.layerEnable i p pf word) .layerIndex s := by
  simp [execLayerEnable, hword, hl]

theorem execLayerEnable_of_uninitialised (hword : pixelWordOf word = some w) (hl : s.layers[i]? = some l)
    (hcfg : s.cfg = none) : execLayerEnable i p pf word s = raiseBy (.layerEnable i p pf word) .notInitialised s := by
  simp [execLayerEnable, hword, hl, hcfg]

theorem execLayerEnable_of_enabled (hword : pixelWordOf word = some w) (hl : s.layers[i]? = some l)
    (hcfg : s.cfg = some c) (hon : l.mode = .enabled) :
    execLayerEnable i p pf word s = raiseBy (.layerEnable i p pf word) .enableWhileEnabled s := by
  simp [execLayerEnable, hword, hl, hcfg, hon]

theorem execLayerEnable_of_misaligned (hword : pixelWordOf word = some w) (hl : s.layers[i]? = some l)
    (hcfg : s.cfg = some c) (hoff : l.mode = .disabled) (hmis : p % fbAlign s.platform w ≠ 0) :
    execLayerEnable i p pf word s = raiseBy (.layerEnable i p pf word) .bufferMisaligned s := by
  simp [execLayerEnable, hword, hl, hcfg, hoff, aligned, hmis]

theorem execLayerEnable_of_missing (hword : pixelWordOf word = some w) (hl : s.layers[i]? = some l)
    (hcfg : s.cfg = some c) (hoff : l.mode = .disabled) (halign : p % fbAlign s.platform w = 0)
    (hmissing : ¬ BytesExist s.platform p (bufferSize c.aw c.ah pf)) :
    execLayerEnable i p pf word s = raiseBy (.layerEnable i p pf word) .footprintInvalid s := by
  simp [execLayerEnable, hword, hl, hcfg, hoff, (aligned_iff _ _ _).mpr halign, accessOK_of_not_exist hmissing]

theorem execLayerEnable_of_checked (hword : pixelWordOf word = some w) (hl : s.layers[i]? = some l)
    (hcfg : s.cfg = some c) (hoff : l.mode = .disabled) (halign : p % fbAlign s.platform w = 0)
    (hexist : BytesExist s.platform p (bufferSize c.aw c.ah pf)) :
    execLayerEnable i p pf word s = .next (setLayer i (layerEnabled p pf w c.aw) s) := by
  simp [execLayerEnable, hword, hl, hcfg, hoff, (aligned_iff _ _ _).mpr halign, (accessOK_iff _ _ _).mpr hexist]

end Enable

/-- Settles O26: with its checks passed `enable` writes its layer with `layerEnabled`. -/
theorem enableWritesItsLayer : Obligations.EnableWritesItsLayer := by
  intro s i p pf word w l c hword hl hcfg hoff halign hexist
  exact execLayerEnable_of_checked hword hl hcfg hoff halign hexist

/-- Settles O27: the equation of each fault; the record is the one `raiseBy` leaves. -/
theorem enableFaultsInOrder : Obligations.EnableFaultsInOrder := by
  intro s i p pf word w l rec hword hl hrec
  obtain rfl := funext hrec
  refine ⟨execLayerEnable_of_uninitialised hword hl, fun c hcfg => ⟨fun hon => ?_, fun hoff hmis => ?_,
    fun hoff halign hmissing => ?_⟩⟩
  · exact execLayerEnable_of_enabled hword hl hcfg hon
  · exact execLayerEnable_of_misaligned hword hl hcfg hoff hmis
  · exact execLayerEnable_of_missing hword hl hcfg hoff halign hmissing

/-! ### `swap_framebuffer`: one equation for each outcome (R119, R150) -/

section Swap
variable {s : State} {i p : Nat} {word : BitVec 2} {w : PixelWord} {l : LayerRegs} {foot : Range}

theorem execLayerSwapFramebuffer_of_noLayer (hword : pixelWordOf word = some w) (hl : s.layers[i]? = none) :
    execLayerSwapFramebuffer i p word s = raiseBy (.layerSwapFramebuffer i p word) .layerIndex s := by
  simp [execLayerSwapFramebuffer, hword, hl]

theorem execLayerSwapFramebuffer_of_disabled (hword : pixelWordOf word = some w) (hl : s.layers[i]? = some l)
    (hoff : l.mode = .disabled) :
    execLayerSwapFramebuffer i p word s = raiseBy (.layerSwapFramebuffer i p word) .swapBeforeEnable s := by
  simp [execLayerSwapFramebuffer, hword, hl, hoff]

theorem execLayerSwapFramebuffer_of_pending (hword : pixelWordOf word = some w) (hl : s.layers[i]? = some l)
    (hon : l.mode = .enabled) (hset : l.swp = true) :
    execLayerSwapFramebuffer i p word s = raiseBy (.layerSwapFramebuffer i p word) .swapWhilePending s := by
  simp [execLayerSwapFramebuffer, hword, hl, hon, hset]

theorem execLayerSwapFramebuffer_of_misaligned (hword : pixelWordOf word = some w) (hl : s.layers[i]? = some l)
    (hon : l.mode = .enabled) (hclear : l.swp = false) (hmis : p % fbAlign s.platform w ≠ 0) :
    execLayerSwapFramebuffer i p word s = raiseBy (.layerSwapFramebuffer i p word) .bufferMisaligned s := by
  simp [execLayerSwapFramebuffer, hword, hl, hon, hclear, aligned, hmis]

theorem execLayerSwapFramebuffer_of_missing (hword : pixelWordOf word = some w) (hl : s.layers[i]? = some l)
    (hon : l.mode = .enabled) (hclear : l.swp = false) (halign : p % fbAlign s.platform w = 0)
    (hfoot : footprint s.cfg l (some p) = some foot) (hmissing : ¬ BytesExist s.platform foot.base foot.len) :
    execLayerSwapFramebuffer i p word s = raiseBy (.layerSwapFramebuffer i p word) .footprintInvalid s := by
  simp [execLayerSwapFramebuffer, hword, hl, hon, hclear, (aligned_iff _ _ _).mpr halign, hfoot,
    accessOK_of_not_exist hmissing]

theorem execLayerSwapFramebuffer_of_checked (hword : pixelWordOf word = some w) (hl : s.layers[i]? = some l)
    (hon : l.mode = .enabled) (hclear : l.swp = false) (halign : p % fbAlign s.platform w = 0)
    (hfoot : footprint s.cfg l (some p) = some foot) (hexist : BytesExist s.platform foot.base foot.len) :
    execLayerSwapFramebuffer i p word s = .next (setLayer i (layerSwapped p w l) s) := by
  simp [execLayerSwapFramebuffer, hword, hl, hon, hclear, (aligned_iff _ _ _).mpr halign, hfoot,
    (accessOK_iff _ _ _).mpr hexist]

end Swap

/-- Settles O29: with its checks passed `swap_framebuffer` writes its layer with `layerSwapped`. -/
theorem swapWritesTheShadow : Obligations.SwapWritesTheShadow := by
  intro s i p word w l c pf pitch hword hl hon hclear hcfg hpf hpitch halign hexist
  exact execLayerSwapFramebuffer_of_checked hword hl hon hclear halign (footprint_of_values hcfg hpitch hpf p) hexist

/-- Settles O30: the equation of each fault; the record is the one `raiseBy` leaves. -/
theorem swapFaultsInOrder : Obligations.SwapFaultsInOrder := by
  intro s i p word w l rec hword hl hrec
  obtain rfl := funext hrec
  refine ⟨execLayerSwapFramebuffer_of_disabled hword hl, execLayerSwapFramebuffer_of_pending hword hl,
    execLayerSwapFramebuffer_of_misaligned hword hl, fun c pf pitch hon hclear halign hcfg hpf hpitch hmissing => ?_⟩
  have hfoot := footprint_of_values hcfg hpitch hpf p
  exact execLayerSwapFramebuffer_of_missing hword hl hon hclear halign hfoot hmissing

/-! ### `is_swap_pending` (R120) -/

theorem execLayerIsSwapPending_of_layer {s : State} {i : Nat} {l : LayerRegs} (hl : s.layers[i]? = some l) :
    execLayerIsSwapPending i s = .next (deliver (.swapPending l.swp) s) := by
  simp [execLayerIsSwapPending, hl]

theorem execLayerIsSwapPending_of_noLayer {s : State} {i : Nat} (hl : s.layers[i]? = none) :
    execLayerIsSwapPending i s = raiseBy (.layerIsSwapPending i) .layerIndex s := by
  simp [execLayerIsSwapPending, hl]

/-- Settles O32: one equation for a layer that exists and one for any other. -/
theorem isSwapPendingReturnsTheFlag : Obligations.IsSwapPendingReturnsTheFlag := fun _ _ =>
  ⟨fun _ => execLayerIsSwapPending_of_layer, fun hi => execLayerIsSwapPending_of_noLayer (List.getElem?_eq_none hi)⟩

/-! ### `resize_buffer_pitch`: one equation for each outcome (R121, R150) -/

section Resize
variable {s : State} {i width : Nat} {l : LayerRegs} {c : CtrlConfig} {feet : List Range}

theorem execLayerResizeBufferPitch_of_noLayer (hl : s.layers[i]? = none) :
    execLayerResizeBufferPitch i width s = raiseBy (.layerResizeBufferPitch i width) .layerIndex s := by
  simp [execLayerResizeBufferPitch, hl]

theorem execLayerResizeBufferPitch_of_disabled (hl : s.layers[i]? = some l) (hoff : l.mode = .disabled) :
    execLayerResizeBufferPitch i width s = raiseBy (.layerResizeBufferPitch i width) .resizeBeforeEnable s := by
  simp [execLayerResizeBufferPitch, hl, hoff]

theorem execLayerResizeBufferPitch_of_narrow (hl : s.layers[i]? = some l) (hon : l.mode = .enabled)
    (hcfg : s.cfg = some c) (haw : width < c.aw) :
    execLayerResizeBufferPitch i width s = raiseBy (.layerResizeBufferPitch i width) .pitchIllegal s := by
  simp [execLayerResizeBufferPitch, hl, hon, hcfg, haw]

/-- A wide enough pitch is judged by the buffers it must fit. -/
theorem execLayerResizeBufferPitch_of_wide (hl : s.layers[i]? = some l) (hon : l.mode = .enabled)
    (hcfg : s.cfg = some c) (haw : c.aw ≤ width) (hfeet : pitchFootprints s.cfg (layerPitched width l) = some feet) :
    execLayerResizeBufferPitch i width s =
      if feet.all (fun f => accessOK s.platform f.base f.len) = true then .next (setLayer i (layerPitched width l) s)
      else raiseBy (.layerResizeBufferPitch i width) .footprintInvalid s := by
  rw [hcfg] at hfeet
  simp only [execLayerResizeBufferPitch, hl, hon, hcfg, Nat.not_lt.mpr haw, hfeet, reduceCtorEq, if_false, ite_not]

/-- The buffers of an Enabled layer whose registers hold values: the displayed one, and the pending one while a swap is
pending. The check of R121 passes where these exist at the new pitch. -/
theorem pitchFootprints_exist_iff {pf : PixelFormat} {shown : Nat} (width : Nat) (hcfg : s.cfg = some c)
    (hpf : l.pf = some pf) (hshown : l.cfba = some shown) (hpending : l.swp = true → l.sfba ≠ none) :
    ∃ feet, pitchFootprints s.cfg (layerPitched width l) = some feet ∧
      (feet.all (fun f => accessOK s.platform f.base f.len) = true ↔
        BytesExist s.platform shown (width * c.ah * bpp pf) ∧ (l.swp = true → ∀ pending, l.sfba = some pending →
          BytesExist s.platform pending (width * c.ah * bpp pf))) := by
  have hfoot (a : Nat) : footprint s.cfg (layerPitched width l) (some a) = some ⟨a, width * c.ah * bpp pf⟩ :=
    footprint_of_values (l := layerPitched width l) hcfg rfl hpf a
  by_cases hswp : l.swp = true
  · obtain ⟨pending, hsfba⟩ := Option.ne_none_iff_exists'.mp (hpending hswp)
    refine ⟨[⟨shown, width * c.ah * bpp pf⟩, ⟨pending, width * c.ah * bpp pf⟩], ?_, ?_⟩
    · simp [pitchFootprints, hshown, hswp, hsfba, hfoot]
    · simp [accessOK_iff, hswp, hsfba]
  · refine ⟨[⟨shown, width * c.ah * bpp pf⟩], ?_, ?_⟩
    · simp [pitchFootprints, hshown, hswp, hfoot]
    · simp [accessOK_iff, hswp]

end Resize

/-- Settles O33: a pitch wide enough, with which every buffer of the layer exists, is written by `layerPitched`. -/
theorem resizePitchIsImmediate : Obligations.ResizePitchIsImmediate := by
  intro s i width l c pf shown hl hon hcfg hpf hshown haw hexist hpending
  have hsome : l.swp = true → l.sfba ≠ none := fun hswp => by
    obtain ⟨pending, hsfba, -⟩ := hpending hswp
    simp [hsfba]
  obtain ⟨feet, hfeet, hall⟩ := pitchFootprints_exist_iff width hcfg hpf hshown hsome
  refine (execLayerResizeBufferPitch_of_wide hl hon hcfg haw hfeet).trans (if_pos (hall.mpr ⟨hexist, ?_⟩))
  intro hswp b hb
  obtain ⟨pending, hsfba, hpendExist⟩ := hpending hswp
  obtain rfl := Option.some.inj (hsfba.symm.trans hb)
  exact hpendExist

/-- Settles O34: the equation of each fault; a missing buffer, displayed or pending, fails the check of R121. -/
theorem resizePitchFaultsInOrder : Obligations.ResizePitchFaultsInOrder := by
  intro s i width l rec hl hrec
  obtain rfl := funext hrec
  refine ⟨execLayerResizeBufferPitch_of_disabled hl, fun c hon hcfg =>
    ⟨execLayerResizeBufferPitch_of_narrow hl hon hcfg, fun pf shown hpf hshown hsome haw hmissing => ?_⟩⟩
  obtain ⟨feet, hfeet, hall⟩ := pitchFootprints_exist_iff width hcfg hpf hshown hsome
  refine (execLayerResizeBufferPitch_of_wide hl hon hcfg haw hfeet).trans (if_neg fun hok => ?_)
  obtain ⟨hexist, hpendExist⟩ := hall.mp hok
  obtain hshownMissing | ⟨hswp, pending, hsfba, hpendMissing⟩ := hmissing
  · exact hshownMissing hexist
  · exact hpendMissing (hpendExist hswp pending hsfba)

/-- Settles O35: the request writes its layer with `layerPitched`. -/
theorem resizePitchWritesOnlyThePitch : Obligations.ResizePitchWritesOnlyThePitch := by
  intro s t i width h
  obtain ⟨l, _, _, hl, -, -, -, -, -, rfl⟩ := execLayerResizeBufferPitch_next h
  exact ⟨rfl, l, hl, rfl⟩

/-! ### A layer that does not exist (R114) -/

/-- Settles O25: of each of the four requests, the equation for a layer that does not exist. -/
theorem layerIndexCheckedFirst : Obligations.LayerIndexCheckedFirst := by
  intro s i hi
  have hl : s.layers[i]? = none := List.getElem?_eq_none hi
  refine ⟨fun p pf word hne => ?_, fun p word hne => ?_, execLayerIsSwapPending_of_noLayer hl, fun width =>
    execLayerResizeBufferPitch_of_noLayer hl⟩
  · obtain ⟨w, hword⟩ := pixelWordOf_of_ne_reserved hne
    exact execLayerEnable_of_noLayer hword hl
  · obtain ⟨w, hword⟩ := pixelWordOf_of_ne_reserved hne
    exact execLayerSwapFramebuffer_of_noLayer hword hl

/-! ### What a layer request makes owned (R116, R117) -/

theorem getElem?_setLayer_self {s : State} {i : Nat} {l l' : LayerRegs} (hl : s.layers[i]? = some l) :
    (setLayer i l' s).layers[i]? = some l' := by
  obtain ⟨hi, -⟩ := List.getElem?_eq_some_iff.mp hl
  simp [hi]

theorem getElem?_setLayer_ne {s : State} {i j : Nat} (l : LayerRegs) (hne : i ≠ j) :
    (setLayer i l s).layers[j]? = s.layers[j]? := List.getElem?_set_ne hne

/-- Where a layer comes to own one more range, the owned set gains the bytes of that range. -/
theorem owned_setLayer_iff {s : State} {i : Nat} {l l' : LayerRegs} {foot : Range} (hl : s.layers[i]? = some l)
    (hgain : layerOwned s.cfg l' = layerOwned s.cfg l ++ [foot]) (x : Nat) :
    owned (setLayer i l' s) x = true ↔ owned s x = true ∨ rangeHas foot x = true := by
  have hl' : l' ∈ (setLayer i l' s).layers := List.mem_of_getElem? (getElem?_setLayer_self hl)
  rw [owned_iff_layer, owned_iff_layer, setLayer_cfg]
  constructor
  · rintro ⟨q, hq, r, hr, hx⟩
    obtain hbefore | rfl := List.mem_or_eq_of_mem_set hq
    · exact .inl ⟨q, hbefore, r, hr, hx⟩
    · rw [hgain, List.mem_append, List.mem_singleton] at hr
      obtain hold | rfl := hr
      · exact .inl ⟨l, List.mem_of_getElem? hl, r, hold, hx⟩
      · exact .inr hx
  · rintro (⟨q, hq, r, hr, hx⟩ | hx)
    · obtain ⟨j, hj⟩ := List.mem_iff_getElem?.mp hq
      by_cases hij : i = j
      · subst hij
        obtain rfl := Option.some.inj (hl.symm.trans hj)
        exact ⟨l', hl', r, by simp [hgain, hr], hx⟩
      · exact ⟨q, List.mem_of_getElem? ((getElem?_setLayer_ne l' hij).trans hj), r, hr, hx⟩
    · exact ⟨l', hl', foot, by simp [hgain], hx⟩

theorem layerOwned_of_disabled {cfg : Option CtrlConfig} {l : LayerRegs} (hoff : l.mode = .disabled) :
    layerOwned cfg l = [] := by
  simp [layerOwned, hoff]

theorem layerOwned_of_clear {cfg : Option CtrlConfig} {l : LayerRegs} (hon : l.mode = .enabled)
    (hclear : l.swp = false) : layerOwned cfg l = (footprint cfg l l.cfba).toList := by
  simp [layerOwned, hon, hclear]

theorem layerOwned_of_pending {cfg : Option CtrlConfig} {l : LayerRegs} (hon : l.mode = .enabled)
    (hset : l.swp = true) : layerOwned cfg l = (footprint cfg l l.cfba).toList ++ (footprint cfg l l.sfba).toList := by
  simp [layerOwned, hon, hset]

/-- An Enabled layer owns what it displays. -/
theorem mem_layerOwned_of_displayed {cfg : Option CtrlConfig} {l : LayerRegs} {foot : Range} (hon : l.mode = .enabled)
    (hfoot : footprint cfg l l.cfba = some foot) : foot ∈ layerOwned cfg l := by
  simp [layerOwned, hon, hfoot]

/-- Settles O28: a Disabled layer owns nothing, and the layer `enable` leaves owns its displayed buffer. -/
theorem enableTakesOwnership : Obligations.EnableTakesOwnership := by
  intro s t i p pf word c hcfg h x
  obtain ⟨w, l, d, -, hl, hcfg', hoff, -, -, rfl⟩ := execLayerEnable_next h
  obtain rfl := Option.some.inj (hcfg.symm.trans hcfg')
  have hfoot : footprint s.cfg (layerEnabled p pf w c.aw) (some p) = some ⟨p, bufferSize c.aw c.ah pf⟩ :=
    footprint_of_values hcfg rfl rfl p
  have hgain : layerOwned s.cfg (layerEnabled p pf w c.aw) = layerOwned s.cfg l ++ [⟨p, bufferSize c.aw c.ah pf⟩] := by
    rw [layerOwned_of_disabled (disabled_of_ne_enabled hoff), layerOwned_of_clear rfl rfl, layerEnabled_cfba, hfoot]
    rfl
  rw [owned_setLayer_iff hl hgain, rangeHas_iff]
  rfl

/-- Settles O31: the layer `swap_framebuffer` leaves owns its displayed buffer, as before, and its pending one. -/
theorem swapOwnsBothBuffers : Obligations.SwapOwnsBothBuffers := by
  intro s t i p word l c pf pitch hl hcfg hpf hpitch h
  obtain ⟨w, l₀, foot, -, hl₀, hon, hclear, -, hfoot, -, rfl⟩ := execLayerSwapFramebuffer_next h
  obtain rfl := Option.some.inj (hl.symm.trans hl₀)
  obtain rfl := Option.some.inj (hfoot.symm.trans (footprint_of_values hcfg hpitch hpf p))
  have hmode := enabled_of_ne_disabled hon
  have hgain : layerOwned s.cfg (layerSwapped p w l) = layerOwned s.cfg l ++ [⟨p, bufferSize pitch c.ah pf⟩] := by
    have hsame (a : Option Nat) : footprint s.cfg (layerSwapped p w l) a = footprint s.cfg l a := rfl
    rw [layerOwned_of_pending (l := layerSwapped p w l) hmode rfl, layerOwned_of_clear hmode hclear, layerSwapped_cfba,
      layerSwapped_sfba, hsame, hsame, hfoot]
    rfl
  refine ⟨fun x => ?_, layerSwapped p w l, getElem?_setLayer_self hl, rfl, rfl⟩
  rw [owned_setLayer_iff hl hgain, rangeHas_iff]
  rfl

/-! ### The vertical blank (R126 to R131) -/

theorem vblank_of_initialised {s : State} (hcfg : s.cfg ≠ none) :
    vblank s = .next { s with layers := s.layers.map layerReloaded } := by
  obtain ⟨c, hc⟩ := Option.ne_none_iff_exists'.mp hcfg
  simp [vblank, hc]

theorem vblank_of_uninitialised {s : State} (hcfg : s.cfg = none) : vblank s = .next s := by
  simp [vblank, hcfg]

/-- Settles O40: the blank maps `layerReloaded` over the layers. -/
theorem verticalBlankReloads : Obligations.VerticalBlankReloads := by
  refine fun s hcfg => ⟨_, vblank_of_initialised hcfg, rfl, List.length_map _, fun i l hl => ?_⟩
  have hreloaded : (s.layers.map layerReloaded)[i]? = some (layerReloaded l) := by simp [hl]
  refine ⟨fun hon hset => ?_, fun hkept => ?_⟩
  · rw [hreloaded, layerReloaded_of_reloads l ((reloads_iff l).mpr ⟨hon, hset⟩)]
  · have hnot : reloads l = false := by
      obtain hoff | hclear := hkept
      · simp [reloads, hoff]
      · simp [reloads, hclear]
    rw [hreloaded, layerReloaded_of_not_reloads l hnot]

/-- Settles O41: without a configuration the blank passes, and `enable` fails its check of F0A. -/
theorem noVerticalBlankBeforeInit : Obligations.NoVerticalBlankBeforeInit := by
  refine fun s hcfg => ⟨vblank_of_uninitialised hcfg, fun i p pf word t h => ?_⟩
  obtain ⟨_, _, c, -, -, hsome, -⟩ := execLayerEnable_next h
  simp [hcfg] at hsome

/-- After a reload an Enabled layer has no swap pending. -/
theorem layerReloaded_swp_of_enabled {l : LayerRegs} (hon : l.mode = .enabled) : (layerReloaded l).swp = false := by
  by_cases hset : l.swp = true
  · rw [layerReloaded_of_reloads l ((reloads_iff l).mpr ⟨hon, hset⟩)]
  · exact layerReloaded_swp_of_clear (by simpa using hset)

/-- Nor has a Disabled one of a good state, where the flag was clear (R45). -/
theorem layerReloaded_swp_of_ok {p : Platform} {cfg : Option CtrlConfig} {l : LayerRegs} (h : LayerOK p cfg l) :
    (layerReloaded l).swp = false := by
  cases hmode : l.mode with
  | enabled => exact layerReloaded_swp_of_enabled hmode
  | disabled =>
    obtain ⟨hclear, -⟩ : l.swp = false ∧ _ := by simpa [LayerOK, hmode] using h
    exact layerReloaded_swp_of_clear hclear

/-- Where no swap is pending, a layer owns its displayed buffer and nothing else. -/
theorem mem_layerOwned_of_clear_iff {cfg : Option CtrlConfig} {l : LayerRegs} (hclear : l.swp = false) (foot : Range) :
    foot ∈ layerOwned cfg l ↔ l.mode = .enabled ∧ footprint cfg l l.cfba = some foot := by
  cases hmode : l.mode with
  | disabled => simp [layerOwned_of_disabled hmode]
  | enabled => simp [layerOwned_of_clear hmode hclear]

/-- Settles O42: the blank leaves no swap pending, so what is owned is what is displayed; and a reloaded layer owned its
new displayed buffer as its pending one. -/
theorem verticalBlankReleases : Obligations.VerticalBlankReleases := by
  intro s t ⟨_, hlayers⟩ hcfg h
  obtain rfl := Host.Outcome.next.inj ((vblank_of_initialised hcfg).symm.trans h)
  have hclear : ∀ l ∈ s.layers.map layerReloaded, l.swp = false := fun l hl => by
    obtain ⟨q, hq, rfl⟩ := List.mem_map.mp hl
    exact layerReloaded_swp_of_ok (hlayers q hq)
  refine ⟨fun x => (owned_iff_layer _ x).trans ⟨?_, ?_⟩, fun x => owned_of_owned_reloaded, hclear⟩
  · rintro ⟨l, hl, foot, hfoot, hx⟩
    obtain ⟨hon, hshown⟩ := (mem_layerOwned_of_clear_iff (hclear l hl) foot).mp hfoot
    exact ⟨l, hl, hon, foot, hshown, hx⟩
  · rintro ⟨l, hl, hon, foot, hshown, hx⟩
    exact ⟨l, hl, foot, mem_layerOwned_of_displayed hon hshown, hx⟩

/-! ### Scan-out (R123) -/

/-- Settles O43: the engine reads inside the displayed buffer of an Enabled layer, which that layer owns. -/
theorem scanOutReadsOnlyOwnedBytes : Obligations.ScanOutReadsOnlyOwnedBytes := by
  refine fun s t i a n => ⟨fun h x hlo hhi => ?_, scanRead_next⟩
  obtain ⟨l, foot, hl, hon, hfoot, hinside⟩ := scanEnabled_eq_true h
  obtain ⟨-, hbase, hend⟩ := (rangeInside_iff _ _).mp hinside
  refine (owned_iff_layer _ _).mpr ⟨l, List.mem_of_getElem? hl, foot, mem_layerOwned_of_displayed hon hfoot, ?_⟩
  exact (rangeHas_iff _ _).mpr ⟨hbase.trans hlo, hhi.trans_le hend⟩

/-! ### What a turn does to an Enabled layer (R125, R132) -/

/-- The layer's mode and displayed buffer are the same, and a pending swap is still pending. -/
structure KeepsBuffer (l l' : LayerRegs) : Prop where
  mode_eq : l'.mode = l.mode
  cfba_eq : l'.cfba = l.cfba
  pending : l.swp = true → l'.swp = true

theorem KeepsBuffer.refl (l : LayerRegs) : KeepsBuffer l l := ⟨rfl, rfl, id⟩

/-- Writing one layer keeps the buffer of every Enabled layer if it keeps its own, where that layer is Enabled. -/
theorem setLayer_keepsBuffer {s : State} {i j : Nat} {l₀ l₁ l : LayerRegs} (hl₀ : s.layers[i]? = some l₀)
    (hl : s.layers[j]? = some l) (hon : l.mode = .enabled) (hkeep : l₀.mode = .enabled → KeepsBuffer l₀ l₁) :
    ∃ l', (setLayer i l₁ s).layers[j]? = some l' ∧ KeepsBuffer l l' := by
  by_cases hij : i = j
  · subst hij
    obtain rfl := Option.some.inj (hl₀.symm.trans hl)
    exact ⟨l₁, getElem?_setLayer_self hl, hkeep hon⟩
  · exact ⟨l, (getElem?_setLayer_ne l₁ hij).trans hl, .refl l⟩

/-- A request moves no displayed buffer and clears no flag: `enable` writes a Disabled layer, `swap_framebuffer` the
shadow, `resize_buffer_pitch` the pitch, and no other request a layer. -/
theorem Performed.keepsBuffer {s t : State} {i : Instr} {j : Nat} {l : LayerRegs} (h : Performed s i t)
    (hl : s.layers[j]? = some l) (hon : l.mode = .enabled) : ∃ l', t.layers[j]? = some l' ∧ KeepsBuffer l l' := by
  cases h with
  | enabled hl₀ hoff => exact setLayer_keepsBuffer hl₀ hl hon (fun hon₀ => absurd hon₀ hoff)
  | swapped hl₀ => exact setLayer_keepsBuffer hl₀ hl hon (fun _ => ⟨rfl, rfl, fun _ => rfl⟩)
  | pitched hl₀ => exact setLayer_keepsBuffer hl₀ hl hon (fun _ => ⟨rfl, rfl, id⟩)
  | held | wrote | drewAndWrote | read | polled | initialised | clocked => exact ⟨l, hl, .refl l⟩

/-- A turn keeps the buffer of an Enabled layer, or is the vertical blank and reloads it. -/
theorem TurnEffect.enabledLayer {a : Turn} {s t : State} {i : Nat} {l : LayerRegs} (h : TurnEffect a s t)
    (hl : s.layers[i]? = some l) (hon : l.mode = .enabled) :
    ∃ l', t.layers[i]? = some l' ∧ (KeepsBuffer l l' ∨ a = .vblank ∧ l' = layerReloaded l) := by
  cases h with
  | requested _ _ _ _ hdone =>
    obtain ⟨l', hl', hkept⟩ := hdone.keepsBuffer hl hon
    exact ⟨l', hl', .inl hkept⟩
  | reloaded hturn => exact ⟨layerReloaded l, by simp [hl], .inr ⟨hturn, rfl⟩⟩
  | passed | stored | answered | completedWrite | completedRead => exact ⟨l, hl, .inl (.refl l)⟩

theorem step_enabledLayer {s t : State} {i : Nat} {l : LayerRegs} (h : step s = .next t) (hl : s.layers[i]? = some l)
    (hon : l.mode = .enabled) :
    ∃ l', t.layers[i]? = some l' ∧ (KeepsBuffer l l' ∨ nextTurn s = .vblank ∧ l' = layerReloaded l) :=
  (step_effect h).enabledLayer (by simpa using hl) hon

/-- Settles O49: a step that keeps the layer's buffer neither moves the displayed pointer nor clears the flag. -/
theorem onlyVerticalBlankMovesTheDisplayedBuffer : Obligations.OnlyVerticalBlankMovesTheDisplayedBuffer := by
  intro s t i l l' h hl hl'
  have heffect (hon : l.mode = .enabled) : KeepsBuffer l l' ∨ nextTurn s = .vblank := by
    obtain ⟨q, hq, hkept | ⟨hturn, -⟩⟩ := step_enabledLayer h hl hon
    · obtain rfl := Option.some.inj (hq.symm.trans hl')
      exact .inl hkept
    · exact .inr hturn
  refine ⟨fun hon hmoved => ?_, fun hon hset hcleared => ?_⟩
  · exact (heffect hon).resolve_left fun hkept => hmoved hkept.cfba_eq
  · exact (heffect hon).resolve_left fun hkept => Bool.eq_false_iff.mp hcleared (hkept.pending hset)

/-- Settles O51: a reload keeps the mode, and the displayed buffer too where no swap is pending. -/
theorem enabledLayersStayEnabled : Obligations.EnabledLayersStayEnabled := by
  intro s t i l h hl hon
  obtain ⟨l', hl', hkept | ⟨-, rfl⟩⟩ := step_enabledLayer h hl hon
  · exact ⟨l', hl', hkept.mode_eq.trans hon, fun _ => hkept.cfba_eq⟩
  · refine ⟨_, hl', (layerReloaded_mode l).trans hon, fun hclear => ?_⟩
    rw [layerReloaded_of_not_reloads l (by simp [reloads, hclear])]

/-! ### A pending swap is consumed (R133) -/

theorem ScheduledRun.enabled_succ {turns : Nat → Turn} {run : Nat → State} (hrun : ScheduledRun turns run) {k i : Nat}
    (h : ∃ l, (run k).layers[i]? = some l ∧ l.mode = .enabled) :
    ∃ l, (run (k + 1)).layers[i]? = some l ∧ l.mode = .enabled := by
  obtain ⟨l, hl, hon⟩ := h
  obtain ⟨-, hturn⟩ := hrun k
  obtain ⟨l', hl', hkept | ⟨-, rfl⟩⟩ := (takeTurn_effect hturn).enabledLayer (by simpa using hl) hon
  · exact ⟨l', hl', hkept.mode_eq.trans hon⟩
  · exact ⟨_, hl', (layerReloaded_mode l).trans hon⟩

/-- Along a run a layer once Enabled stays Enabled (R132). -/
theorem ScheduledRun.enabled_of_le {turns : Nat → Turn} {run : Nat → State} (hrun : ScheduledRun turns run)
    {m k i : Nat} (hmk : m ≤ k) (h : ∃ l, (run m).layers[i]? = some l ∧ l.mode = .enabled) :
    ∃ l, (run k).layers[i]? = some l ∧ l.mode = .enabled := by
  induction k, hmk using Nat.le_induction with
  | base => exact h
  | succ k _ ih => exact hrun.enabled_succ ih

/-- A vertical blank after `init` leaves no swap pending on an Enabled layer. -/
theorem ScheduledRun.clear_after_vblank {turns : Nat → Turn} {run : Nat → State} (hrun : ScheduledRun turns run)
    {k i : Nat} {l : LayerRegs} (hcfg : (run k).cfg ≠ none) (hblank : turns k = .vblank)
    (hl : (run k).layers[i]? = some l) (hon : l.mode = .enabled) :
    ∃ l', (run (k + 1)).layers[i]? = some l' ∧ l'.swp = false := by
  obtain ⟨-, hturn⟩ := hrun k
  rw [hblank] at hturn
  have hvblank := vblank_of_initialised (s := afterTurn (run k)) (by simpa using hcfg)
  rw [← Host.Outcome.next.inj (hvblank.symm.trans hturn)]
  exact ⟨layerReloaded l, by simp [hl], layerReloaded_swp_of_enabled hon⟩

/-- Settles O59: fairness gives a vertical blank late enough for the controller to be initialised; until then the layer
stays Enabled, and the blank leaves no swap pending on it. -/
theorem pendingSwapIsConsumed : Obligations.PendingSwapIsConsumed := by
  intro turns run hrun hfair hinit m i l hl hon _
  obtain ⟨first, hcfg⟩ := hinit
  obtain ⟨k, hk, hblank⟩ := hfair ⟨first, hcfg⟩ (max m first)
  have hmk : m ≤ k := (le_max_left _ _).trans hk
  obtain ⟨q, hq, hqon⟩ := hrun.enabled_of_le hmk ⟨l, hl, hon⟩
  obtain ⟨l', hl', hclear⟩ := hrun.clear_after_vblank (hcfg k ((le_max_right _ _).trans hk)) hblank hq hqon
  exact ⟨k + 1, l', by omega, hl', hclear⟩

end Sys2Proof.Machine

/-! PROOFS for 43_display_controller.md: what `init` and `clock` do (O37, O39) and where they fault (O38, O39), and that
the controller and the encoder are independent of each other (O24). -/

namespace Sys2Proof.Machine

/-! ### `init`: one equation for each outcome, in the order of the checks (R135, R150) -/

section Init
variable {c : CtrlConfig} {s : State}

theorem any_enabled_eq_false (hoff : ∀ l ∈ s.layers, l.mode = .disabled) :
    s.layers.any (fun l => l.mode == .enabled) = false :=
  List.any_eq_false.mpr fun l hl => by simp [hoff l hl]

theorem execCtrlInit_of_enabled (hon : ∃ l ∈ s.layers, l.mode = .enabled) :
    execCtrlInit c s = raiseBy (.ctrlInit c) .initWhileEnabled s := by
  have hany : s.layers.any (fun l => l.mode == .enabled) = true := by simpa using hon
  simp only [execCtrlInit, hany, if_true]

theorem execCtrlInit_of_illegal (hoff : ∀ l ∈ s.layers, l.mode = .disabled) (hzero : c.aw = 0 ∨ c.ah = 0) :
    execCtrlInit c s = raiseBy (.ctrlInit c) .configIllegal s := by
  simp [execCtrlInit, any_enabled_eq_false hoff, hzero]

theorem execCtrlInit_of_legal (hoff : ∀ l ∈ s.layers, l.mode = .disabled) (haw : c.aw ≠ 0) (hah : c.ah ≠ 0) :
    execCtrlInit c s = .next (setCfg c s) := by
  simp [execCtrlInit, any_enabled_eq_false hoff, haw, hah]

end Init

/-- Settles O37: an active width and height of at least 1 are what `init` asks of the record it puts in place. -/
theorem initReplacesTheConfiguration : Obligations.InitReplacesTheConfiguration := fun _ _ hoff haw hah =>
  execCtrlInit_of_legal hoff (Nat.one_le_iff_ne_zero.mp haw) (Nat.one_le_iff_ne_zero.mp hah)

/-- Settles O38: the equation of each fault; the record is the one `raiseBy` leaves. -/
theorem initFaultsInOrder : Obligations.InitFaultsInOrder := by
  intro s c rec hrec
  obtain rfl := funext hrec
  exact ⟨execCtrlInit_of_enabled, execCtrlInit_of_illegal⟩

/-! ### `clock` (R138, R139) -/

theorem execCtrlClock_of_initialised {c : CtrlConfig} {s : State} (hcfg : s.cfg = some c) :
    execCtrlClock s = .next (deliver (.clock (Config.pixelClockHz c)) s) := by
  simp [execCtrlClock, hcfg]

theorem execCtrlClock_of_uninitialised {s : State} (hcfg : s.cfg = none) :
    execCtrlClock s = raiseBy .ctrlClock .notInitialised s := by
  simp [execCtrlClock, hcfg]

/-- Settles O39: PIXEL_CLOCK_HZ is the function of the configuration that `clock` returns. -/
theorem clockReportsTheConfiguration : Obligations.ClockReportsTheConfiguration :=
  ⟨Config.pixelClockHz, fun _ => ⟨fun _ => execCtrlClock_of_initialised, execCtrlClock_of_uninitialised⟩⟩

/-! ### The encoder does not depend on the configuration (R141)

Of what a DSI request reads, the owned set alone depends on the configuration, and it is empty while every layer is
Disabled. -/

theorem issueExternalWrite_of_idle {mk : List Byte → WriteCommand} {n : Nat} {s : State} (hidle : s.txn = none) :
    issueExternalWrite mk n s =
      .next (startTxn (.write (encW s.platform.mrpsByteOrder (mk (drawnBytes n s)))) (afterDraw n s)) := by
  simp [issueExternalWrite, hidle]

/-- Nothing is owned while every layer is Disabled (R35). -/
theorem freeOfOwned_of_disabled {s : State} (hoff : ∀ l ∈ s.layers, l.mode = .disabled) (a n : Nat) :
    FreeOfOwned s a n := by
  intro x _ _
  rw [Bool.eq_false_iff, ne_eq, owned_iff_layer]
  rintro ⟨l, hl, r, hr, -⟩
  simp [layerOwned_of_disabled (hoff l hl)] at hr

section OtherConfiguration
variable {s t : State} (cfg : Option CtrlConfig)

theorem issueWrite_withCfg {c : WriteCommand} (hidle : s.txn = none) (h : issueWrite c s = .next t) :
    issueWrite c { s with cfg := cfg } = .next { t with cfg := cfg } := by
  obtain ⟨hbusy, -⟩ | ⟨-, rfl⟩ := issueWrite_next h
  · exact absurd hidle hbusy
  · exact issueWrite_of_idle hidle

theorem issueLongWrite_withCfg {i : Instr} {mk : List Byte → WriteCommand} {a n : Nat} (hidle : s.txn = none)
    (hoff : ∀ l ∈ s.layers, l.mode = .disabled) (h : issueLongWrite i mk a n s = .next t) :
    issueLongWrite i mk a n { s with cfg := cfg } = .next { t with cfg := cfg } := by
  obtain ⟨hbusy, -⟩ | ⟨-, hlen, -, hacc, rfl⟩ := issueLongWrite_next h
  · exact absurd hidle hbusy
  · exact issueLongWrite_of_readable hidle ((longDataOK_iff _ _).mp hlen)
      (.inr (freeOfOwned_of_disabled (s := { s with cfg := cfg }) hoff a n)) ((accessOK_iff _ _ _).mp hacc)

theorem issueExternalWrite_withCfg {mk : List Byte → WriteCommand} {n : Nat} (hidle : s.txn = none)
    (h : issueExternalWrite mk n s = .next t) :
    issueExternalWrite mk n { s with cfg := cfg } = .next { t with cfg := cfg } := by
  obtain ⟨hbusy, -⟩ | ⟨-, rfl⟩ := issueExternalWrite_next h
  · exact absurd hidle hbusy
  · exact issueExternalWrite_of_idle hidle

theorem issueRead_withCfg {i : Instr} {c : ReadCommand} {a n : Nat} (hidle : s.txn = none)
    (hoff : ∀ l ∈ s.layers, l.mode = .disabled) (h : issueRead i c a n s = .next t) :
    issueRead i c a n { s with cfg := cfg } = .next { t with cfg := cfg } := by
  obtain ⟨hbusy, -⟩ | ⟨-, hlen, hacc, -, rfl⟩ := issueRead_next h
  · exact absurd hidle hbusy
  · exact issueRead_of_free hidle hlen ((accessOK_iff _ _ _).mp hacc)
      (freeOfOwned_of_disabled (s := { s with cfg := cfg }) hoff a n)

/-- A DSI request held stays held, and one that is issued is issued in the same way. -/
theorem exec_dsi_withCfg {i : Instr} (hdsi : requestKindOfInstr i = .write ∨ requestKindOfInstr i = .read)
    (hoff : ∀ l ∈ s.layers, l.mode = .disabled) (h : exec i s = .next t) :
    exec i { s with cfg := cfg } = .next { t with cfg := cfg } := by
  obtain hidle | ⟨x, hbusy⟩ := Option.eq_none_or_eq_some s.txn
  · cases i with
    | writeDcsShortP0 | writeDcsShortP1 | writeGenericShortP0 | writeSetMaximumReturnPacketSize =>
      exact issueWrite_withCfg cfg hidle h
    | writeDcsLongWrite | writeGenericLongWrite => exact issueLongWrite_withCfg cfg hidle hoff h
    | writeGenericShortP1 | writeGenericShortP2 => exact issueExternalWrite_withCfg cfg hidle h
    | readDcsShort | readGenericShortP0 | readGenericShortP1 | readGenericShortP2 =>
      exact issueRead_withCfg cfg hidle hoff h
    | layerEnable | layerSwapFramebuffer | layerIsSwapPending | layerResizeBufferPitch | ctrlInit | ctrlClock =>
      simp [requestKindOfInstr] at hdsi
  · obtain rfl := Host.Outcome.next.inj ((exec_dsi_of_busy hdsi hbusy).symm.trans h)
    exact exec_dsi_of_busy hdsi hbusy

end OtherConfiguration

/-! ### `init` and `clock` do not depend on the encoder (R141) -/

/-- The request writes neither the transaction in flight nor the wire log, and does the same whatever they are. -/
def IgnoresEncoder (i : Instr) (s t : State) : Prop :=
  t.txn = s.txn ∧ t.wire = s.wire ∧
    ∀ txn wire, exec i { s with txn := txn, wire := wire } = .next { t with txn := txn, wire := wire }

theorem ctrlInit_ignoresEncoder {c : CtrlConfig} {s t : State} (h : exec (.ctrlInit c) s = .next t) :
    IgnoresEncoder (.ctrlInit c) s t := by
  obtain ⟨hon, haw, hah, rfl⟩ := execCtrlInit_next h
  have hoff : ∀ l ∈ s.layers, l.mode = .disabled := fun l hl => disabled_of_ne_enabled (hon l hl)
  exact ⟨rfl, rfl, fun _ _ => execCtrlInit_of_legal hoff haw hah⟩

theorem ctrlClock_ignoresEncoder {s t : State} (h : exec .ctrlClock s = .next t) : IgnoresEncoder .ctrlClock s t := by
  obtain ⟨_, hcfg, rfl⟩ := execCtrlClock_next h
  exact ⟨rfl, rfl, fun _ _ => execCtrlClock_of_initialised hcfg⟩

/-- Settles O24: `exec_dsi_withCfg` for the DSI requests; the two controller requests ignore the encoder. -/
theorem dsiDoesNotDependOnInit : Obligations.DsiDoesNotDependOnInit := by
  refine ⟨fun _ _ _ cfg hdsi hoff => exec_dsi_withCfg cfg hdsi hoff, fun i s t hctrl h => ?_⟩
  cases i with
  | ctrlInit => exact ctrlInit_ignoresEncoder h
  | ctrlClock => exact ctrlClock_ignoresEncoder h
  | _ => simp [requestKindOfInstr] at hctrl

end Sys2Proof.Machine

/-! PROOFS for 60_exceptions.md: a transport completion and a vertical blank commute (O46), and faults are sticky
(O48). -/

namespace Sys2Proof.Machine

/-! ### A completion and a vertical blank touch disjoint state (R151) -/

theorem complete_of_idle {s : State} (r : TxResult) (k : Option Nat) (hidle : s.txn = none) :
    complete r k s = .next s := by
  simp [complete, hidle]

theorem IsCompletion.takeTurn_eq {turn : Turn} (h : IsCompletion turn) :
    ∃ r k, ∀ s, takeTurn turn s = complete r k s := by
  obtain rfl | ⟨e, k, rfl⟩ := h
  · exact ⟨.ok, none, fun _ => rfl⟩
  · exact ⟨.err e, some k, fun _ => rfl⟩

/-- A completion writes neither of what the vertical blank reads: the configuration and the layers. -/
theorem complete_display_eq {r : TxResult} {k : Option Nat} {s t : State} (h : complete r k s = .next t) :
    t.cfg = s.cfg ∧ t.layers = s.layers := by
  obtain ⟨-, rfl⟩ | ⟨_, -, rfl⟩ | ⟨_, _, _, -, -, rfl⟩ := complete_next h <;> exact ⟨rfl, rfl⟩

/-- A completion does the same whatever the layers are. -/
theorem complete_withLayers {r : TxResult} {k : Option Nat} {s t : State} (layers : List LayerRegs)
    (h : complete r k s = .next t) :
    complete r k { s with layers := layers } = .next { t with layers := layers } := by
  obtain ⟨hidle, rfl⟩ | ⟨frame, htxn, rfl⟩ | ⟨frame, n, a, htxn, hacc, rfl⟩ := complete_next h
  · exact complete_of_idle r k hidle
  · exact complete_of_write r k htxn
  · exact complete_of_read r k htxn ((accessOK_iff _ _ _).mp hacc)

/-- Settles O46: the completion keeps what the blank reads, and the blank writes only the layers, which the completion
does not read. -/
theorem completionAndVerticalBlankCommute : Obligations.CompletionAndVerticalBlankCommute := by
  intro s a b turn hturn ha hb
  obtain ⟨r, k, hcomplete⟩ := IsCompletion.takeTurn_eq hturn
  rw [hcomplete] at ha ⊢
  obtain ⟨hcfg, hlayers⟩ := complete_display_eq ha
  obtain ⟨hnone, rfl⟩ | ⟨hsome, rfl⟩ := vblank_next hb
  · exact ⟨a, vblank_of_uninitialised (hcfg.trans hnone), ha⟩
  · refine ⟨_, vblank_of_initialised (hcfg ▸ hsome), ?_⟩
    rw [hlayers]
    exact complete_withLayers _ ha

/-! ### What a request that faults leaves (R145) -/

/-- Every way a request `i` can answer in state `s`: it goes on, it is refused, it raises one of the faults of R146
(R145), or it would read a register that holds no value. -/
inductive RequestAnswer (i : Instr) (s : State) : Out → Prop where
  | next (t : State) : RequestAnswer i s (.next t)
  | refused (r : Refusal) : RequestAnswer i s (.refused r)
  | raised (code : FaultCode) : RequestAnswer i s (raiseBy i code s)
  | noValue : RequestAnswer i s (.fault (.noValue s))

theorem RequestAnswer.fault_eq {i : Instr} {s : State} {o : Out} {f : Fault} (h : RequestAnswer i s o)
    (hf : o = .fault f) :
    f = .noValue s ∨
      ∃ code, f = faultOf code (addFault ⟨code, .request (requestKindOfInstr i), recordOperands s.platform i⟩ s) := by
  cases h with
  | next | refused => simp at hf
  | raised code => exact .inr ⟨code, (Host.Outcome.fault.inj hf).symm⟩
  | noValue => exact .inl (Host.Outcome.fault.inj hf).symm

section Answers
variable (s : State)

theorem issueWrite_answer (i : Instr) (c : WriteCommand) : RequestAnswer i s (issueWrite c s) := by
  unfold issueWrite
  split <;> exact .next _

theorem issueExternalWrite_answer (i : Instr) (mk : List Byte → WriteCommand) (n : Nat) :
    RequestAnswer i s (issueExternalWrite mk n s) := by
  unfold issueExternalWrite
  split <;> exact .next _

theorem issueLongWrite_answer (i : Instr) (mk : List Byte → WriteCommand) (a n : Nat) :
    RequestAnswer i s (issueLongWrite i mk a n s) := by
  unfold issueLongWrite
  repeat' split
  exacts [.next _, .raised .longDataTooLong, .raised .ownedBufferAccess, .raised .footprintInvalid, .next _]

theorem issueRead_answer (i : Instr) (c : ReadCommand) (a n : Nat) : RequestAnswer i s (issueRead i c a n s) := by
  unfold issueRead
  repeat' split
  exacts [.next _, .raised .readLen, .raised .footprintInvalid, .raised .ownedBufferAccess, .next _]

theorem execLayerEnable_answer (i p : Nat) (pf : PixelFormat) (word : BitVec 2) :
    RequestAnswer (.layerEnable i p pf word) s (execLayerEnable i p pf word s) := by
  unfold execLayerEnable
  repeat' split
  exacts [.refused _, .raised .layerIndex, .raised .notInitialised, .raised .enableWhileEnabled,
    .raised .bufferMisaligned, .raised .footprintInvalid, .next _]

theorem execLayerSwapFramebuffer_answer (i p : Nat) (word : BitVec 2) :
    RequestAnswer (.layerSwapFramebuffer i p word) s (execLayerSwapFramebuffer i p word s) := by
  unfold execLayerSwapFramebuffer
  repeat' split
  exacts [.refused _, .raised .layerIndex, .raised .swapBeforeEnable, .raised .swapWhilePending,
    .raised .bufferMisaligned, .noValue, .raised .footprintInvalid, .next _]

theorem execLayerIsSwapPending_answer (i : Nat) :
    RequestAnswer (.layerIsSwapPending i) s (execLayerIsSwapPending i s) := by
  unfold execLayerIsSwapPending
  split
  exacts [.raised .layerIndex, .next _]

theorem execLayerResizeBufferPitch_answer (i width : Nat) :
    RequestAnswer (.layerResizeBufferPitch i width) s (execLayerResizeBufferPitch i width s) := by
  unfold execLayerResizeBufferPitch
  repeat' split
  exacts [.raised .layerIndex, .raised .resizeBeforeEnable, .noValue, .raised .pitchIllegal, .noValue,
    .raised .footprintInvalid, .next _]

theorem execCtrlInit_answer (c : CtrlConfig) : RequestAnswer (.ctrlInit c) s (execCtrlInit c s) := by
  unfold execCtrlInit
  repeat' split
  exacts [.raised .initWhileEnabled, .raised .configIllegal, .next _]

theorem execCtrlClock_answer : RequestAnswer .ctrlClock s (execCtrlClock s) := by
  unfold execCtrlClock
  split
  exacts [.raised .notInitialised, .next _]

/-- Each request raises its faults in its own name, in the state it was given. -/
theorem exec_answer (i : Instr) : RequestAnswer i s (exec i s) := by
  cases i with
  | writeDcsShortP0 | writeDcsShortP1 | writeGenericShortP0 | writeSetMaximumReturnPacketSize =>
    exact issueWrite_answer _ _ _
  | writeDcsLongWrite | writeGenericLongWrite => exact issueLongWrite_answer _ _ _ _ _
  | writeGenericShortP1 | writeGenericShortP2 => exact issueExternalWrite_answer _ _ _ _
  | readDcsShort | readGenericShortP0 | readGenericShortP1 | readGenericShortP2 => exact issueRead_answer _ _ _ _ _
  | layerEnable => exact execLayerEnable_answer _ _ _ _ _
  | layerSwapFramebuffer => exact execLayerSwapFramebuffer_answer _ _ _ _
  | layerIsSwapPending => exact execLayerIsSwapPending_answer _ _
  | layerResizeBufferPitch => exact execLayerResizeBufferPitch_answer _ _ _
  | ctrlInit => exact execCtrlInit_answer _ _
  | ctrlClock => exact execCtrlClock_answer _

end Answers

theorem addFault_eq (r : FaultRecord) (s : State) : addFault r s = { s with faults := (addFault r s).faults } := by
  unfold addFault; split <;> rfl

/-! ### A run that has stopped (R145, R147) -/

theorem step_of_faulted {s : State} (h : s.faults ≠ []) : step s = .fault (.stopped s) := by
  simp [step, running, stoppedOutcome, h]

theorem step_of_refused {s : State} (hclean : s.faults = []) (href : s.refused = true) :
    step s = .refused (.stopped s) := by
  simp [step, running, stoppedOutcome, hclean, href]

/-- Settles O48: what a request can answer, the record in the fault set, and the step of a run that has stopped. -/
theorem faultsAreSticky : Obligations.FaultsAreSticky :=
  ⟨fun i s _ h => (exec_answer s i).fault_eq h,
    fun r s => ⟨mem_addFault r s, fun q => addFault_keeps r q s, addFault_eq r s⟩,
    fun _ => step_of_faulted, fun _ => step_of_refused⟩

end Sys2Proof.Machine

/-! PROOFS for 70_reset_and_hazards.md: nothing is owned after reset (O13), and a busy encoder becomes idle (O60). -/

namespace Sys2Proof.Machine

/-! ### After reset (R162) -/

theorem resetOn_layer_disabled {p : Platform} {extra : Nat} {l : LayerRegs}
    (hl : l ∈ (State.resetOn p extra).layers) : l.mode = .disabled := by
  obtain ⟨-, -, -, -, -, -, hlayers⟩ := resetValues p extra
  obtain ⟨hoff, -⟩ := hlayers l hl
  exact hoff

theorem freeOfOwned_resetOn (p : Platform) (extra a n : Nat) : FreeOfOwned (State.resetOn p extra) a n :=
  freeOfOwned_of_disabled (fun _ => resetOn_layer_disabled) a n

/-- Settles O13: with every layer Disabled nothing is owned, so a load or a store faults only for bytes that do not
exist. -/
theorem resetOwnsNothing : Obligations.ResetOwnsNothing := by
  refine fun p extra => ⟨fun x => ?_, fun a n hexist => ?_, fun a bs hexist => ?_⟩
  · exact freeOfOwned_resetOn p extra x 1 x le_rfl x.lt_succ_self
  · exact ⟨_, hostLoad_of_readable (.inr (freeOfOwned_resetOn p extra a n)) hexist⟩
  · exact ⟨_, hostStore_of_free (freeOfOwned_resetOn p extra a bs.length) hexist⟩

/-! ### A busy encoder becomes idle (R177) -/

/-- A completion that goes on leaves the encoder idle: it passes when nothing is in flight, and ends what is. -/
theorem complete_idle {r : TxResult} {k : Option Nat} {s t : State} (h : complete r k s = .next t) : t.txn = none := by
  obtain ⟨hidle, rfl⟩ | ⟨_, -, rfl⟩ | ⟨_, _, _, -, -, rfl⟩ := complete_next h
  · exact hidle
  · rfl
  · rfl

theorem ScheduledRun.idle_after_completion {turns : Nat → Turn} {run : Nat → State} (hrun : ScheduledRun turns run)
    {k : Nat} (hturn : IsCompletion (turns k)) : (run (k + 1)).txn = none := by
  obtain ⟨-, hnext⟩ := hrun k
  obtain ⟨r, b, hcomplete⟩ := hturn.takeTurn_eq
  exact complete_idle ((hcomplete _).symm.trans hnext)

/-- Settles O60: fairness gives a completion at some later turn, or at this one, and it leaves the encoder idle. -/
theorem busyEncoderBecomesIdle : Obligations.BusyEncoderBecomesIdle := by
  intro turns run hrun hfair m hbusy
  obtain ⟨k, hmk, hturn⟩ := hfair m hbusy
  exact ⟨k + 1, Nat.lt_succ_of_le hmk, hrun.idle_after_completion hturn⟩

end Sys2Proof.Machine
